-- ==== Sys2Proof/Word.lean ====
section
/-! DEFINITION. Values and register indices: `00_scope.md` R8, `10_state.md` R22. -/

namespace Sys2Proof

/-- A *value*: 32 bits, two's complement (`00_scope.md` R8). Its signed reading is `BitVec.toInt`. -/
abbrev Word := BitVec 32

/-- A register index, 0 to 31 (`10_state.md` R22, `30_encoding.md` R57). -/
abbrev Reg := Fin 32

/-- `wrap32(n)`: the value congruent to the integer `n` modulo 2^32 (`00_scope.md` R8). -/
def wrap32 (n : Int) : Word := BitVec.ofInt 32 n

end Sys2Proof
end

