-- ==== Sys2Proof/Record.lean ====
section
/-! DEFINITION. The instruction record the loader hands the core and the stages copy from latch to latch
(`30_encoding.md` R56, R57). It keeps all five fields, those its format ignores included. -/

namespace Sys2Proof

/-- The 26 opcodes in the order that numbers them, from 0 (`30_encoding.md` R56). -/
inductive Opcode where
  | ADD | SUB | MUL | DIV | AND | OR | XOR
  | MOVC | ADDL | SUBL
  | LOAD | LOADP | STORE | STOREP
  | JUMP | JALR | BZ | BNZ | BP | BNP | BN | BNN | HALT | NOP
  | CMP | CML
  deriving DecidableEq, Repr

/-- The abstract instruction record of `30_encoding.md` R57. -/
structure Record where
  opcode : Opcode
  rd : Reg
  rs1 : Reg
  rs2 : Reg
  imm : Word
  deriving DecidableEq, Repr

end Sys2Proof
end

