-- ==== Sys2Proof/Syntax.lean ====
section
/-! DEFINITION. The 26 instructions of `spec/opcode_table.json`, one constructor a row, in the table's order.
Each constructor holds the operands its format reads (`30_encoding.md` R59 to R67) and no others; an ignored field of
the record is carried by `Record`, not here. Register operands are `Fin 32` and immediates 32 bits, so every term is
well formed by its type; what the loader may get wrong is checked in `WellFormed.lean`. -/

namespace Sys2Proof

/-- An instruction of the closed enumeration of `30_encoding.md` R56. -/
inductive Instr where
  /-- ADD Rd,Rs1,Rs2 (R101) -/
  | add (rd rs1 rs2 : Reg)
  /-- SUB Rd,Rs1,Rs2 (R102) -/
  | sub (rd rs1 rs2 : Reg)
  /-- MUL Rd,Rs1,Rs2 (R103) -/
  | mul (rd rs1 rs2 : Reg)
  /-- DIV Rd,Rs1,Rs2 (R104) -/
  | div (rd rs1 rs2 : Reg)
  /-- AND Rd,Rs1,Rs2 (R105) -/
  | and (rd rs1 rs2 : Reg)
  /-- OR Rd,Rs1,Rs2 (R106) -/
  | or (rd rs1 rs2 : Reg)
  /-- XOR Rd,Rs1,Rs2 (R107) -/
  | xor (rd rs1 rs2 : Reg)
  /-- MOVC Rd,#imm (R110) -/
  | movc (rd : Reg) (imm : Word)
  /-- ADDL Rd,Rs1,#imm (R111) -/
  | addl (rd rs1 : Reg) (imm : Word)
  /-- SUBL Rd,Rs1,#imm (R112) -/
  | subl (rd rs1 : Reg) (imm : Word)
  /-- LOAD Rd,Rs1,#imm (R114) -/
  | load (rd rs1 : Reg) (imm : Word)
  /-- LOADP Rd,Rs1,#imm (R115) -/
  | loadp (rd rs1 : Reg) (imm : Word)
  /-- STORE Rs1,Rs2,#imm (R116) -/
  | store (rs1 rs2 : Reg) (imm : Word)
  /-- STOREP Rs1,Rs2,#imm (R117) -/
  | storep (rs1 rs2 : Reg) (imm : Word)
  /-- JUMP Rs1,#imm (R120) -/
  | jump (rs1 : Reg) (imm : Word)
  /-- JALR Rd,Rs1,#imm (R121) -/
  | jalr (rd rs1 : Reg) (imm : Word)
  /-- BZ #imm (R122) -/
  | bz (imm : Word)
  /-- BNZ #imm (R123) -/
  | bnz (imm : Word)
  /-- BP #imm (R124) -/
  | bp (imm : Word)
  /-- BNP #imm (R125) -/
  | bnp (imm : Word)
  /-- BN #imm (R126) -/
  | bn (imm : Word)
  /-- BNN #imm (R127) -/
  | bnn (imm : Word)
  /-- HALT (R128) -/
  | halt
  /-- NOP (R129) -/
  | nop
  /-- CMP Rs1,Rs2 (R133) -/
  | cmp (rs1 rs2 : Reg)
  /-- CML Rs1,#imm (R134) -/
  | cml (rs1 : Reg) (imm : Word)
  deriving DecidableEq, Repr

end Sys2Proof
end

