-- ==== Sys2Proof/Config.lean ====
section
/-! DEFINITION. The parameters of `00_scope.md` R7: the fixed ones, and the values of the inputs that
`Machine.State.reset` starts from. The spec leaves no value open (`93_implementation_defined.md` section 1), so no
constant here is opaque. -/

namespace Sys2Proof.Config

/-- `INSTR_WIDTH`: the amount `PC` advances per instruction (R7, fixed). -/
def instrWidth : Int := 4

/-- `AUTOINC`: the amount LOADP and STOREP add to their base register (R7, fixed). -/
def autoInc : Int := 4

/-- `CODE_BASE`, an input; the spec's default (R7, decision D6). -/
def codeBaseDefault : Word := 4000#32

/-- `DMEM_WORDS`, an input; the spec's default (R7, decision D5). -/
def dmemWordsDefault : Nat := 4096

/-- `RETIRE_LIMIT`, an input; the spec's default, no limit (R7, decision D18). -/
def retireLimitDefault : Option Nat := none

/-- `CYCLE_LIMIT`, an input for which the spec states no default (R7: every run states its own).
DESIGN CHOICE, log entry 3; unsafe. No statement rests on this number. -/
def cycleLimitDefault : Nat := 1000000

end Sys2Proof.Config
end

