-- ==== Sys2Proof/WellFormed.lean ====
section
/-! DEFINITION. What must hold of the inputs before a machine exists: `70_reset_and_hazards.md` R151,
`30_encoding.md` R69. An `Instr` is well formed by its type; these checks are on what the loader and the host hand
over, where an opcode number or a register index can still be out of range. -/

namespace Sys2Proof

/-- A record as the external loader hands it over, nothing checked yet (`30_encoding.md` R57, R69). -/
structure RawRecord where
  /-- opcode number; 0 to 25 name an instruction (R56) -/
  opcode : Nat
  rd : Nat
  rs1 : Nat
  rs2 : Nat
  imm : Word
  deriving DecidableEq, Repr

/-- R69, R151: one of the 26 opcodes, every register index below 32. -/
def RawRecord.wellFormed (r : RawRecord) : Bool :=
  r.opcode ≤ 25 && r.rd < 32 && r.rs1 < 32 && r.rs2 < 32

/-- The inputs of `60_exceptions.md` R147, as given before reset is released. -/
structure RawInputs where
  program : List RawRecord
  codeBase : Word
  dmemWords : Nat
  cycleLimit : Nat
  retireLimit : Option Nat
  deriving DecidableEq, Repr

/-- R151: `PROG_LEN` is not 0. -/
def RawInputs.programNonempty (p : RawInputs) : Bool := p.program.length != 0

/-- R151: every record is well formed. -/
def RawInputs.recordsWellFormed (p : RawInputs) : Bool := p.program.all RawRecord.wellFormed

/-- R151: `CODE_BASE` is a multiple of 4. -/
def RawInputs.codeBaseAligned (p : RawInputs) : Bool := p.codeBase.toInt % 4 == 0

/-- R151: `CODE_BASE + 4·PROG_LEN` does not exceed 2^31 − 1. -/
def RawInputs.codeFits (p : RawInputs) : Bool :=
  p.codeBase.toInt + Config.instrWidth * (p.program.length : Int) ≤ 2147483647

/-- R151: `DMEM_WORDS` is at least 1 and at most 2^31. -/
def RawInputs.dmemSized (p : RawInputs) : Bool :=
  1 ≤ p.dmemWords && p.dmemWords ≤ 2147483648

/-- R151: the inputs a machine can be constructed from. -/
def RawInputs.wellFormed (p : RawInputs) : Bool :=
  p.programNonempty && p.recordsWellFormed && p.codeBaseAligned && p.codeFits && p.dmemSized

end Sys2Proof
end

