-- ==== Sys2Proof/Decode.lean ====
section
/-! DEFINITION. The decoder and the encoder of `30_encoding.md` R56 to R71: the 64-bit word form, the abstract record,
the instruction. Total; a word that names no instruction is rejected by name. -/

namespace Sys2Proof

/-- Why a word is no instruction. -/
inductive DecodeError where
  /-- Opcode numbers 26 to 31 name no instruction (`30_encoding.md` R69). -/
  | reservedOpcode (n : Nat)
  deriving DecidableEq, Repr

/-- The opcode with a given number (`30_encoding.md` R56). -/
def Opcode.ofNumber : Nat → Option Opcode
  | 0 => some .ADD | 1 => some .SUB | 2 => some .MUL | 3 => some .DIV
  | 4 => some .AND | 5 => some .OR | 6 => some .XOR
  | 7 => some .MOVC | 8 => some .ADDL | 9 => some .SUBL
  | 10 => some .LOAD | 11 => some .LOADP | 12 => some .STORE | 13 => some .STOREP
  | 14 => some .JUMP | 15 => some .JALR
  | 16 => some .BZ | 17 => some .BNZ | 18 => some .BP
  | 19 => some .BNP | 20 => some .BN | 21 => some .BNN
  | 22 => some .HALT | 23 => some .NOP
  | 24 => some .CMP | 25 => some .CML
  | _ => none

/-- The number of an opcode (`30_encoding.md` R56). -/
def Opcode.number : Opcode → Nat
  | .ADD => 0 | .SUB => 1 | .MUL => 2 | .DIV => 3
  | .AND => 4 | .OR => 5 | .XOR => 6
  | .MOVC => 7 | .ADDL => 8 | .SUBL => 9
  | .LOAD => 10 | .LOADP => 11 | .STORE => 12 | .STOREP => 13
  | .JUMP => 14 | .JALR => 15
  | .BZ => 16 | .BNZ => 17 | .BP => 18 | .BNP => 19 | .BN => 20 | .BNN => 21
  | .HALT => 22 | .NOP => 23
  | .CMP => 24 | .CML => 25

/-- The instruction a record stands for: its format decides which fields are read (`30_encoding.md` R59 to R67). -/
def Record.toInstr (r : Record) : Instr :=
  match r.opcode with
  | .ADD => .add r.rd r.rs1 r.rs2
  | .SUB => .sub r.rd r.rs1 r.rs2
  | .MUL => .mul r.rd r.rs1 r.rs2
  | .DIV => .div r.rd r.rs1 r.rs2
  | .AND => .and r.rd r.rs1 r.rs2
  | .OR => .or r.rd r.rs1 r.rs2
  | .XOR => .xor r.rd r.rs1 r.rs2
  | .MOVC => .movc r.rd r.imm
  | .ADDL => .addl r.rd r.rs1 r.imm
  | .SUBL => .subl r.rd r.rs1 r.imm
  | .LOAD => .load r.rd r.rs1 r.imm
  | .LOADP => .loadp r.rd r.rs1 r.imm
  | .STORE => .store r.rs1 r.rs2 r.imm
  | .STOREP => .storep r.rs1 r.rs2 r.imm
  | .JUMP => .jump r.rs1 r.imm
  | .JALR => .jalr r.rd r.rs1 r.imm
  | .BZ => .bz r.imm
  | .BNZ => .bnz r.imm
  | .BP => .bp r.imm
  | .BNP => .bnp r.imm
  | .BN => .bn r.imm
  | .BNN => .bnn r.imm
  | .HALT => .halt
  | .NOP => .nop
  | .CMP => .cmp r.rs1 r.rs2
  | .CML => .cml r.rs1 r.imm

/-- The canonical record of an instruction: every field its format ignores is 0 (`30_encoding.md` R69, R71). -/
def Instr.toRecord : Instr → Record
  | .add rd rs1 rs2 => ⟨.ADD, rd, rs1, rs2, 0#32⟩
  | .sub rd rs1 rs2 => ⟨.SUB, rd, rs1, rs2, 0#32⟩
  | .mul rd rs1 rs2 => ⟨.MUL, rd, rs1, rs2, 0#32⟩
  | .div rd rs1 rs2 => ⟨.DIV, rd, rs1, rs2, 0#32⟩
  | .and rd rs1 rs2 => ⟨.AND, rd, rs1, rs2, 0#32⟩
  | .or rd rs1 rs2 => ⟨.OR, rd, rs1, rs2, 0#32⟩
  | .xor rd rs1 rs2 => ⟨.XOR, rd, rs1, rs2, 0#32⟩
  | .movc rd imm => ⟨.MOVC, rd, 0, 0, imm⟩
  | .addl rd rs1 imm => ⟨.ADDL, rd, rs1, 0, imm⟩
  | .subl rd rs1 imm => ⟨.SUBL, rd, rs1, 0, imm⟩
  | .load rd rs1 imm => ⟨.LOAD, rd, rs1, 0, imm⟩
  | .loadp rd rs1 imm => ⟨.LOADP, rd, rs1, 0, imm⟩
  | .store rs1 rs2 imm => ⟨.STORE, 0, rs1, rs2, imm⟩
  | .storep rs1 rs2 imm => ⟨.STOREP, 0, rs1, rs2, imm⟩
  | .jump rs1 imm => ⟨.JUMP, 0, rs1, 0, imm⟩
  | .jalr rd rs1 imm => ⟨.JALR, rd, rs1, 0, imm⟩
  | .bz imm => ⟨.BZ, 0, 0, 0, imm⟩
  | .bnz imm => ⟨.BNZ, 0, 0, 0, imm⟩
  | .bp imm => ⟨.BP, 0, 0, 0, imm⟩
  | .bnp imm => ⟨.BNP, 0, 0, 0, imm⟩
  | .bn imm => ⟨.BN, 0, 0, 0, imm⟩
  | .bnn imm => ⟨.BNN, 0, 0, 0, imm⟩
  | .halt => ⟨.HALT, 0, 0, 0, 0#32⟩
  | .nop => ⟨.NOP, 0, 0, 0, 0#32⟩
  | .cmp rs1 rs2 => ⟨.CMP, 0, rs1, rs2, 0#32⟩
  | .cml rs1 imm => ⟨.CML, 0, rs1, 0, imm⟩

/-- The register index in the 5-bit field whose lowest bit is bit `lo` of the word (`30_encoding.md` R58). -/
def regField (w : BitVec 64) (lo : Nat) : Reg := (w.extractLsb' lo 5).toFin

/-- `decode(w)` as far as the record (`30_encoding.md` R58, R71): bits 63:59 are the opcode number, 58:54 `rd`, 53:49
`rs1`, 48:44 `rs2`, 31:0 the immediate; bits 43:32 are ignored. -/
def decodeRecord (w : BitVec 64) : Except DecodeError Record :=
  match Opcode.ofNumber (w.extractLsb' 59 5).toNat with
  | some op => .ok ⟨op, regField w 54, regField w 49, regField w 44, w.extractLsb' 0 32⟩
  | none => .error (.reservedOpcode (w.extractLsb' 59 5).toNat)

/-- `decode(w)`: the instruction a 64-bit word denotes (`30_encoding.md` R71), or why it denotes none (R69). -/
def decode (w : BitVec 64) : Except DecodeError Instr := (decodeRecord w).map Record.toInstr

/-- `encode(record)`: opcode·2^59 + rd·2^54 + rs1·2^49 + rs2·2^44 + imm, the reserved bits 0 (`30_encoding.md` R58,
R71). -/
def encodeRecord (r : Record) : BitVec 64 :=
  BitVec.ofNat 64
    (r.opcode.number * 2 ^ 59 + r.rd.val * 2 ^ 54 + r.rs1.val * 2 ^ 49 + r.rs2.val * 2 ^ 44 + r.imm.toNat)

/-- The canonical word of an instruction (`30_encoding.md` R58, R69, R71). -/
def encode (i : Instr) : BitVec 64 := encodeRecord i.toRecord

/-- The checked form of a loader's record: none where R151 refuses it (`70_reset_and_hazards.md` R151). -/
def RawRecord.toRecord (r : RawRecord) : Option Record :=
  match Opcode.ofNumber r.opcode with
  | some op =>
    if h : r.rd < 32 ∧ r.rs1 < 32 ∧ r.rs2 < 32 then
      some ⟨op, ⟨r.rd, h.1⟩, ⟨r.rs1, h.2.1⟩, ⟨r.rs2, h.2.2⟩, r.imm⟩
    else none
  | none => none

/-- The record in a table word of `nbits` bits, bit 0 the least significant: the record occupies one 64-bit word, so
no byte order arises (`20_memory.md` R47). -/
def tableRecord (nbits w : Nat) : Option Record :=
  (decodeRecord (BitVec.ofNat 64 (w % 2 ^ nbits))).toOption

/-- The instruction the decoder reads from a table word. -/
def decodeTableWord (nbits w : Nat) : Option Instr :=
  (decode (BitVec.ofNat 64 (w % 2 ^ nbits))).toOption

end Sys2Proof
end

