-- ==== Sys2Proof/Machine/State.lean ====
section
/-! DEFINITION. The state of `10_state.md` R14, as plain data, the inputs of R15 beside it, and the state after reset
(R40, `70_reset_and_hazards.md` R149). -/

namespace Sys2Proof.Machine

/-- The five stages (`00_scope.md` R10), in the order a pass evaluates them (`40_pipeline_stages.md` R72). -/
inductive Stage where
  | writeback | memory | execute | decode | fetch
  deriving DecidableEq, Repr

/-- The causes of `60_exceptions.md` R138: what `raise Fault(c)` carries out of a stage function. The sequencer
catches every one of them (R137) and goes on to the terminal run state `RunState.fault c`. -/
inductive Fault where
  /-- Raised by DIV in Execute when its divisor is 0 (R104). Safe: the spec names this end, and the pass is undone. -/
  | divideByZero
  /-- Raised by LOAD, LOADP, STORE, STOREP in Memory when the address is outside 0 to `DMEM_WORDS`−1 (R42, R43).
  Safe: the spec names this end, and the pass is undone. -/
  | dataAddressOutOfRange
  deriving DecidableEq, Repr

/-- Why the model gives an instruction no meaning. -/
inductive Refusal where
  /-- Raised by an arm of `exec` that has no meaning yet. No arm raises it: every instruction has its meaning. Safe. -/
  | notModelled (mnemonic : String)
  deriving DecidableEq, Repr

/-- `RUN_STATE` (`10_state.md` R30, `60_exceptions.md` R136). Every value but `running` is terminal. -/
inductive RunState where
  | running
  | halted
  | budgetExhausted
  | retireLimit
  | fault (cause : Fault)
  deriving DecidableEq, Repr

/-- A stage latch: the fourteen fields of `10_state.md` R31. -/
structure Latch where
  opcode : Opcode
  rd : Reg
  rs1 : Reg
  rs2 : Reg
  imm : Word
  pc : Word
  rs1Value : Word
  rs2Value : Word
  result : Word
  memoryAddress : Word
  baseNext : Word
  empty : Bool
  stalled : Bool
  interrupted : Bool
  deriving DecidableEq, Repr

/-- `BUBBLE` (`10_state.md` R34). -/
def Latch.bubble : Latch where
  opcode := .ADD
  rd := 0
  rs1 := 0
  rs2 := 0
  imm := 0#32
  pc := 0#32
  rs1Value := 0#32
  rs2Value := 0#32
  result := 0#32
  memoryAddress := 0#32
  baseNext := 0#32
  empty := true
  stalled := false
  interrupted := false

/-- Data memory: (word address, word) pairs, addresses strictly rising, no entry equal to what an unlisted address
reads as. The unit is the 32-bit word: no byte view exists (`20_memory.md` R41, R47). -/
abbrev Memory := List (Nat × Word)

/-- The inputs of `00_scope.md` R7 and `10_state.md` R15: fixed before reset is released, written by no rule.
`PROG_LEN` is the length of `imem`. -/
structure Inputs where
  imem : List Record
  codeBase : Word
  dmemWords : Nat
  cycleLimit : Nat
  retireLimit : Option Nat
  deriving DecidableEq, Repr

/-- The complete state of the block (`10_state.md` R14), its inputs (R15), and the sequencer's place in the pass. -/
structure State where
  /-- the inputs of R15: carried, never written -/
  inputs : Inputs
  /-- `PC` (R18) -/
  pc : Word
  /-- `x[0..31]` (R22) -/
  x : Vector Word 32
  /-- `ready[0..31]` (R24) -/
  ready : Vector Bool 32
  /-- `Z` (R27) -/
  z : Bool
  /-- `N` (R27) -/
  n : Bool
  /-- `P` (R27) -/
  p : Bool
  /-- `flags_valid` (R29) -/
  flagsValid : Bool
  /-- `CLK` (R30) -/
  clk : Nat
  /-- `ICOUNT` (R30) -/
  icount : Nat
  /-- `RUN_STATE` (R30) -/
  runState : RunState
  /-- `F_SKIP` (R30) -/
  fSkip : Bool
  /-- `L_F` (R31) -/
  lF : Latch
  /-- `L_D` (R31) -/
  lD : Latch
  /-- `L_E` (R31) -/
  lE : Latch
  /-- `L_M` (R31) -/
  lM : Latch
  /-- `L_W` (R31) -/
  lW : Latch
  /-- `DMEM` (R39) -/
  dmem : Memory
  /-- THE MODEL'S OWN, not the spec's: the stage function the pass is evaluating (R6, R72), which tells a meaning
  which of its five stage actions to perform. `fetch` at every cycle boundary. Log entry 1. -/
  phase : Stage
  deriving DecidableEq, Repr

/-- The state after reset for given inputs (`10_state.md` R40, `70_reset_and_hazards.md` R149). -/
def State.resetWith (inputs : Inputs) : State where
  inputs := inputs
  pc := inputs.codeBase
  x := Vector.replicate 32 0#32
  ready := Vector.replicate 32 true
  z := false
  n := false
  p := false
  flagsValid := true
  clk := 1
  icount := 0
  runState := .running
  fSkip := false
  lF := Latch.bubble
  lD := Latch.bubble
  lE := Latch.bubble
  lM := Latch.bubble
  lW := Latch.bubble
  dmem := []
  phase := .fetch

/-- The inputs before anything is supplied: the spec's defaults and an instruction memory with nothing loaded. The
loader is outside the block (`00_scope.md` R5); log entries 2 and 3. -/
def Inputs.unloaded : Inputs where
  imem := []
  codeBase := Config.codeBaseDefault
  dmemWords := Config.dmemWordsDefault
  cycleLimit := Config.cycleLimitDefault
  retireLimit := Config.retireLimitDefault

/-- The machine right after reset, with no program loaded. -/
def State.reset : State := State.resetWith Inputs.unloaded

end Sys2Proof.Machine
end

