-- ==== Sys2Proof/Machine/Operands.lean ====
section
/-! DEFINITION. The operands of each opcode: which registers it reads and writes (`40_pipeline_stages.md` R75, R76),
and the values Execute computes from them (R86). -/

namespace Sys2Proof.Machine

/-- The instruction in a latch, whatever its control bits say (`10_state.md` R31). -/
def Latch.instr (l : Latch) : Instr := Record.toInstr ⟨l.opcode, l.rd, l.rs1, l.rs2, l.imm⟩

/-- The first source register, for the opcodes with `uses_rs1` (`40_pipeline_stages.md` R75). -/
def rs1Of : Instr → Option Reg
  | .add _ a _ | .sub _ a _ | .mul _ a _ | .div _ a _ | .and _ a _ | .or _ a _ | .xor _ a _ => some a
  | .cmp a _ | .store a _ _ | .storep a _ _ => some a
  | .addl _ a _ | .subl _ a _ | .load _ a _ | .loadp _ a _ | .jalr _ a _ => some a
  | .cml a _ | .jump a _ => some a
  | .movc _ _ | .bz _ | .bnz _ | .bp _ | .bnp _ | .bn _ | .bnn _ | .halt | .nop => none

/-- The second source register, for the opcodes with `uses_rs2` (`40_pipeline_stages.md` R75). -/
def rs2Of : Instr → Option Reg
  | .add _ _ b | .sub _ _ b | .mul _ _ b | .div _ _ b | .and _ _ b | .or _ _ b | .xor _ _ b => some b
  | .cmp _ b | .store _ b _ | .storep _ b _ => some b
  | .addl _ _ _ | .subl _ _ _ | .load _ _ _ | .loadp _ _ _ | .jalr _ _ _ | .cml _ _ | .jump _ _ => none
  | .movc _ _ | .bz _ | .bnz _ | .bp _ | .bnp _ | .bn _ | .bnn _ | .halt | .nop => none

/-- `srcs` (`40_pipeline_stages.md` R75). -/
def srcsOf (i : Instr) : List Reg := (rs1Of i).toList ++ (rs2Of i).toList

/-- `dests` (`40_pipeline_stages.md` R76). -/
def destsOf : Instr → List Reg
  | .add d _ _ | .sub d _ _ | .mul d _ _ | .div d _ _ | .and d _ _ | .or d _ _ | .xor d _ _ => [d]
  | .movc d _ | .addl d _ _ | .subl d _ _ | .load d _ _ | .jalr d _ _ => [d]
  | .loadp d a _ => [d, a]
  | .storep _ b _ => [b]
  | .store _ _ _ | .cmp _ _ | .cml _ _ | .jump _ _ => []
  | .bz _ | .bnz _ | .bp _ | .bnp _ | .bn _ | .bnn _ | .halt | .nop => []

/-- `CONDITIONAL_BRANCHES` (`40_pipeline_stages.md` R78). -/
def isConditionalBranch : Instr → Bool
  | .bz _ | .bnz _ | .bp _ | .bnp _ | .bn _ | .bnn _ => true
  | .add _ _ _ | .sub _ _ _ | .mul _ _ _ | .div _ _ _ | .and _ _ _ | .or _ _ _ | .xor _ _ _ => false
  | .movc _ _ | .addl _ _ _ | .subl _ _ _ | .load _ _ _ | .loadp _ _ _ | .store _ _ _ | .storep _ _ _ => false
  | .jump _ _ | .jalr _ _ _ | .halt | .nop | .cmp _ _ | .cml _ _ => false

/-- `writes(L, r)` (`40_pipeline_stages.md` R77). -/
def Latch.writes (l : Latch) (r : Reg) : Bool := !l.empty && decide (r ∈ destsOf l.instr)

/-- ADD, ADDL (`41_arithmetic.md` R101, `42_move_immediate.md` R111). -/
def addWords (a b : Word) : Word := wrap32 (a.toInt + b.toInt)

/-- SUB, SUBL, CMP, CML (R102, R112, R133, R134). -/
def subWords (a b : Word) : Word := wrap32 (a.toInt - b.toInt)

/-- MUL (R103). -/
def mulWords (a b : Word) : Word := wrap32 (a.toInt * b.toInt)

/-- The quotient of DIV, rounded toward zero; the divisor is not 0 (R104). -/
def divWords (a b : Word) : Word := wrap32 (a.toInt.tdiv b.toInt)

/-- Effective address of a load or a store (`43_memory_ops.md` R113). -/
def effectiveAddress (base imm : Word) : Word := wrap32 (base.toInt + imm.toInt)

/-- `base_next` of LOADP and STOREP (`43_memory_ops.md` R113). -/
def nextBase (base : Word) : Word := wrap32 (base.toInt + Config.autoInc)

/-- The word with bits 1:0 cleared. -/
def clearLowBits (v : Word) : Word := v &&& 0xFFFFFFFC#32

/-- Target of JUMP and JALR (`44_control.md` R119). -/
def jumpTarget (base imm : Word) : Word := clearLowBits (wrap32 (base.toInt + imm.toInt))

/-- Target of a taken conditional branch (`44_control.md` R119). -/
def branchTarget (pc imm : Word) : Word := wrap32 (pc.toInt + imm.toInt)

/-- The address after `pc`: JALR's link (R121), and `PC` after a fetch (`10_state.md` R19). -/
def nextPc (pc : Word) : Word := wrap32 (pc.toInt + Config.instrWidth)

end Sys2Proof.Machine
end

