-- ==== Sys2Proof/Machine/Flags.lean ====
section
/-! DEFINITION. The condition codes and `flags_valid`: `10_state.md` R27 to R29, `40_pipeline_stages.md` R78, R87,
R90, R95. -/

namespace Sys2Proof.Machine

/-- `FLAG_WRITERS` (`40_pipeline_stages.md` R78). -/
def isFlagWriter : Instr → Bool
  | .add _ _ _ | .sub _ _ _ | .mul _ _ _ | .div _ _ _ | .and _ _ _ | .or _ _ _ | .xor _ _ _ => true
  | .addl _ _ _ | .subl _ _ _ | .movc _ _ | .cmp _ _ | .cml _ _ => true
  | .load _ _ _ | .loadp _ _ _ | .store _ _ _ | .storep _ _ _ | .jump _ _ | .jalr _ _ _ => false
  | .bz _ | .bnz _ | .bp _ | .bnp _ | .bn _ | .bnn _ | .halt | .nop => false

/-- `FLAG_PRODUCERS` (`40_pipeline_stages.md` R78): fewer than the writers, `90_conflicts.md` C2. -/
def isFlagProducer : Instr → Bool
  | .add _ _ _ | .sub _ _ _ | .mul _ _ _ | .div _ _ _ | .addl _ _ _ | .subl _ _ _ | .cmp _ _ | .cml _ _ => true
  | .and _ _ _ | .or _ _ _ | .xor _ _ _ | .movc _ _ => false
  | .load _ _ _ | .loadp _ _ _ | .store _ _ _ | .storep _ _ _ | .jump _ _ | .jalr _ _ _ => false
  | .bz _ | .bnz _ | .bp _ | .bnp _ | .bn _ | .bnn _ | .halt | .nop => false

/-- `is_producer(L)` (`40_pipeline_stages.md` R78). -/
def Latch.isProducer (l : Latch) : Bool := !l.empty && isFlagProducer l.instr

/-- `v = 0`, the value of `Z` (`10_state.md` R28). -/
def zeroFlag (v : Word) : Bool := v.toInt == 0

/-- `v < 0` on the signed reading, the value of `N` (`10_state.md` R28). -/
def negativeFlag (v : Word) : Bool := v.toInt < 0

/-- `v > 0` on the signed reading, the value of `P` (`10_state.md` R28). -/
def positiveFlag (v : Word) : Bool := 0 < v.toInt

/-- `SetZNP(v)` (`10_state.md` R28). -/
def State.setZNP (s : State) (v : Word) : State :=
  { s with z := zeroFlag v, n := negativeFlag v, p := positiveFlag v }

/-- The flag write of a flag writer that is a producer: `SetZNP`, and `flags_valid` false (`40_pipeline_stages.md`
R87). -/
def State.produceFlags (s : State) (v : Word) : State :=
  { s with z := zeroFlag v, n := negativeFlag v, p := positiveFlag v, flagsValid := false }

/-- The condition-code commit of Writeback for the committing instruction `i` (`40_pipeline_stages.md` R95). -/
def State.commitFlags (s : State) (i : Instr) : State :=
  { s with
    flagsValid :=
      if isFlagProducer i && !(s.lE.isProducer || s.lM.isProducer) then true else s.flagsValid }

end Sys2Proof.Machine
end

