-- ==== Sys2Proof/Machine/Ops.lean ====
section
/-! DEFINITION. The named operations over registers, memory and latches, the stage actions the meanings share, and
what the spec has in place of taking an exception: `raise Fault(c)` and its catch (`60_exceptions.md` R137). -/

namespace Sys2Proof.Machine

/-- What a stage function answers: the state it leaves, or the fault it raises. -/
abbrev Out := Host.Outcome State Fault Refusal

/-- Sequencing: a fault or a refusal abandons what follows (`40_pipeline_stages.md` R72). -/
def andThen (o : Out) (f : State → Out) : Out :=
  match o with
  | .next s => f s
  | .fault c => .fault c
  | .refused r => .refused r

/-- `raise Fault(c)` (`60_exceptions.md` R137). -/
def raise (c : Fault) : Out := .fault c

/-- Taking a fault: the whole state as it was before the pass, `RUN_STATE` alone written (`60_exceptions.md` R137,
R141). There is no handler and no return (R135, R142). -/
def takeFault (c : Fault) (s0 : State) : State := { s0 with runState := .fault c }

/-- The pass's catch: a raised fault ends the machine in `Fault(c)` over the state `s0` the pass began in. -/
def catchFault (s0 : State) (o : Out) : Out :=
  match o with
  | .next s => .next s
  | .fault c => .next (takeFault c s0)
  | .refused r => .refused r

/-- The state while the stage function of `st` is evaluated. -/
def State.during (s : State) (st : Stage) : State := { s with phase := st }

/-! ### General registers and the hazard tracker -/

/-- `x[r]` (`10_state.md` R22). No register is hardwired. -/
def State.readReg (s : State) (r : Reg) : Word := s.x[r.val]

/-- `x[r] <- v` (`10_state.md` R22). -/
def State.writeReg (s : State) (r : Reg) (v : Word) : State := { s with x := s.x.set r.val v }

/-- `ready[r]` (`10_state.md` R24). -/
def State.isReady (s : State) (r : Reg) : Bool := s.ready[r.val]

/-- `ready[r] <- f r` for every register of `rs`. -/
def setReadyBits (ready : Vector Bool 32) (f : Reg → Bool) : List Reg → Vector Bool 32
  | [] => ready
  | r :: rs => setReadyBits (ready.set r.val (f r)) f rs

/-- Decode's marking of the destinations (`40_pipeline_stages.md` R82). -/
def State.markNotReady (s : State) (rs : List Reg) : State :=
  { s with ready := setReadyBits s.ready (fun _ => false) rs }

/-- Writeback's release of the destinations: ready unless Execute or Memory holds another writer
(`40_pipeline_stages.md` R94). -/
def State.release (s : State) (rs : List Reg) : State :=
  { s with ready := setReadyBits s.ready (fun r => !(s.lE.writes r || s.lM.writes r)) rs }

/-! ### Data memory -/

/-- What an address no store has written reads as: data memory is zero-initialized (`10_state.md` R39, R40). -/
def Memory.unlisted : Word := 0#32

/-- The word at an address. -/
def Memory.read : Memory → Nat → Word
  | [], _ => Memory.unlisted
  | (b, w) :: m, a => if a = b then w else Memory.read m a

/-- The memory with one word written, in canonical form: writing what an unlisted address reads as removes the
entry. -/
def Memory.write : Memory → Nat → Word → Memory
  | [], a, v => if v = Memory.unlisted then [] else [(a, v)]
  | (b, w) :: m, a, v =>
    if a < b then (if v = Memory.unlisted then (b, w) :: m else (a, v) :: (b, w) :: m)
    else if a = b then (if v = Memory.unlisted then m else (a, v) :: m)
    else (b, w) :: Memory.write m a v

/-- Canonical form from address `lo` on: addresses strictly rising, no entry an unlisted address would read as. -/
def Memory.wfFrom (lo : Nat) : Memory → Bool
  | [] => true
  | (a, w) :: m => lo ≤ a && w != Memory.unlisted && Memory.wfFrom (a + 1) m

/-- The canonical form. -/
def Memory.wf (m : Memory) : Bool := Memory.wfFrom 0 m

/-- Every listed address is a word of a memory of `size` words (`20_memory.md` R41). -/
def Memory.within (size : Nat) (m : Memory) : Bool := m.all (fun c => c.1 < size)

/-- `addr`, read as signed, is a word of data memory (`20_memory.md` R42). -/
def State.dataAddressOk (s : State) (addr : Word) : Bool :=
  0 ≤ addr.toInt && addr.toInt < (s.inputs.dmemWords : Int)

/-- `DMEM[addr]` for an address in range. -/
def State.dataWord (s : State) (addr : Word) : Word := Memory.read s.dmem addr.toInt.toNat

/-- `MemRead(addr, 1)` (`20_memory.md` R42). -/
def State.memRead (s : State) (addr : Word) : Except Fault Word :=
  if s.dataAddressOk addr then .ok (s.dataWord addr) else .error .dataAddressOutOfRange

/-- The state with `DMEM[addr] <- v`, for an address in range. -/
def State.putWord (s : State) (addr v : Word) : State :=
  { s with dmem := Memory.write s.dmem addr.toInt.toNat v }

/-- `MemWrite(addr, 1, v)` (`20_memory.md` R43). -/
def State.memWrite (s : State) (addr v : Word) : Except Fault State :=
  if s.dataAddressOk addr then .ok (s.putWord addr v) else .error .dataAddressOutOfRange

/-! ### Instruction memory -/

/-- The index of address `pc` in instruction memory, when `pc` is not below `CODE_BASE` and a multiple of 4 away from
it (`20_memory.md` R45). -/
def fetchIndex (codeBase pc : Word) : Option Nat :=
  let off := pc.toInt - codeBase.toInt
  if 0 ≤ off ∧ off % Config.instrWidth = 0 then some (off / Config.instrWidth).toNat else none

/-- `IFetch(PC)` (`20_memory.md` R45). -/
def State.iFetch (s : State) : Option Record :=
  match fetchIndex s.inputs.codeBase s.pc with
  | some k => s.inputs.imem[k]?
  | none => none

/-! ### Latches -/

/-- `payload(L)` (`10_state.md` R35). -/
def Latch.payload (l : Latch) : Latch := { l with empty := false, stalled := false, interrupted := false }

/-- The latch Fetch builds for a record: every value field 0, every control bit false (`40_pipeline_stages.md` R79). -/
def Latch.fetched (r : Record) (pc : Word) : Latch :=
  { Latch.bubble with
    opcode := r.opcode, rd := r.rd, rs1 := r.rs1, rs2 := r.rs2, imm := r.imm, pc := pc, empty := false }

/-! ### Fetch (`40_pipeline_stages.md` R79 to R81) -/

/-- Fetch reads a record into `L_F` and advances `PC` (R79, `10_state.md` R19). -/
def State.fillFetch (s : State) (r : Record) : State :=
  { s with lF := Latch.fetched r s.pc, pc := nextPc s.pc }

/-- Fetch pushes the instruction in `L_F` into `L_D`, or holds it while Decode is stalled (R79, R81). -/
def State.pushFetch (s : State) : State :=
  if s.lD.stalled then { s with lF := { s.lF with stalled := true } }
  else { s with lD := s.lF.payload, lF := Latch.bubble }

/-- Fetch's action on the instruction it works on, every opcode alike: the one held in `L_F`, or, when `L_F` is empty,
the one at `PC` (R79); nothing when there is none (R80). -/
def fetchAction (s : State) : Out :=
  if s.lF.empty then
    match s.iFetch with
    | some r => .next (s.fillFetch r).pushFetch
    | none => .next s
  else .next s.pushFetch

/-! ### Decode (`40_pipeline_stages.md` R82 to R85) -/

/-- Decode keeps its occupant (R83, R85). -/
def State.stallDecode (s : State) : State := { s with lD := { s.lD with stalled := true } }

/-- Decode's one readiness test (R82): every source ready, and `flags_valid` for a conditional branch. -/
def State.canDispatch (s : State) (i : Instr) : Bool :=
  (srcsOf i).all (fun r => s.isReady r) && (!isConditionalBranch i || s.flagsValid)

/-- `L_D` with the source values the opcode uses read into it (R82). -/
def State.readOperands (s : State) (i : Instr) : Latch :=
  { s.lD with
    rs1Value := (match rs1Of i with | some r => s.readReg r | none => s.lD.rs1Value)
    rs2Value := (match rs2Of i with | some r => s.readReg r | none => s.lD.rs2Value) }

/-- The dispatch of an occupant that passes the test: sources read, destinations marked, the latch handed to `L_E`
(R82). -/
def State.dispatched (s : State) (i : Instr) : State :=
  { (s.markNotReady (destsOf i)) with lE := (s.readOperands i).payload, lD := Latch.bubble }

/-- The dispatch of HALT: `L_D` is kept and shut down, and Fetch with it (R84). -/
def State.dispatchedHalt (s : State) (i : Instr) : State :=
  { (s.markNotReady (destsOf i)) with
    lE := (s.readOperands i).payload
    lD := { s.readOperands i with stalled := false, interrupted := true }
    lF := { s.lF with interrupted := true } }

/-- Execute is occupied and stalled, so that Decode is held (R85; unreachable from reset). -/
def State.executeHolds (s : State) : Bool := !s.lE.empty && s.lE.stalled

/-- Decode's action on an occupant other than HALT (R82, R83, R85). -/
def dispatch (i : Instr) (s : State) : Out :=
  if s.executeHolds then .next s.stallDecode
  else if s.canDispatch i then .next (s.dispatched i)
  else .next s.stallDecode

/-- Decode's action on HALT (R82, R84, R85). -/
def dispatchHalt (i : Instr) (s : State) : Out :=
  if s.executeHolds then .next s.stallDecode
  else if s.canDispatch i then .next (s.dispatchedHalt i)
  else .next s.stallDecode

/-! ### Execute (`40_pipeline_stages.md` R86 to R91) -/

/-- Execute hands the latch `l` to `L_M` and empties its own (R86). -/
def State.toMemory (s : State) (l : Latch) : State := { s with lM := l.payload, lE := Latch.bubble }

/-- Execute's action for a flag writer that is a producer: result, flags, `flags_valid` cleared (R86, R87). -/
def executeProducer (r : Word) (s : State) : Out :=
  .next ((s.produceFlags r).toMemory { s.lE with result := r })

/-- Execute's action for a flag writer that is no producer: result and flags (R86, R87). -/
def executeWriter (r : Word) (s : State) : Out :=
  .next ((s.setZNP r).toMemory { s.lE with result := r })

/-- Execute's action for LOAD and STORE: the effective address (R86). -/
def executeAddress (base imm : Word) (s : State) : Out :=
  .next (s.toMemory { s.lE with memoryAddress := effectiveAddress base imm })

/-- Execute's action for LOADP and STOREP: the effective address and the incremented base (R86). -/
def executeAddressInc (base imm : Word) (s : State) : Out :=
  .next (s.toMemory { s.lE with memoryAddress := effectiveAddress base imm, baseNext := nextBase base })

/-- `Redirect(t)` (R89). -/
def State.redirect (s : State) (t : Word) : State :=
  { s with pc := t, lD := Latch.bubble, lF := Latch.bubble, fSkip := true }

/-- Execute's action for a jump to `t` that carries `result` on (R86, R91). -/
def executeJump (t result : Word) (s : State) : Out :=
  .next ((s.redirect t).toMemory { s.lE with result := result })

/-- Execute's action for a conditional branch whose test came out `taken` (R86, R90). -/
def executeBranch (taken : Bool) (imm : Word) (s : State) : Out :=
  if taken then executeJump (branchTarget s.lE.pc imm) (branchTarget s.lE.pc imm) s
  else .next (s.toMemory s.lE)

/-- Execute's action for NOP (R86). -/
def executeNothing (s : State) : Out := .next (s.toMemory s.lE)

/-- Execute's action for HALT: `L_E` is kept and shut down (R86, R97). -/
def executeHalt (s : State) : Out :=
  .next { s with lM := s.lE.payload, lE := { s.lE with interrupted := true } }

/-! ### Memory (`40_pipeline_stages.md` R92) -/

/-- Memory hands the latch `l` to `L_W` and empties its own (R92). -/
def State.toWriteback (s : State) (l : Latch) : State := { s with lW := l.payload, lM := Latch.bubble }

/-- Memory's action for the opcodes that make no access (R92). -/
def memoryNothing (s : State) : Out := .next (s.toWriteback s.lM)

/-- Memory's action for LOAD and LOADP (R92). -/
def memoryLoad (s : State) : Out :=
  match s.memRead s.lM.memoryAddress with
  | .ok v => .next (s.toWriteback { s.lM with result := v })
  | .error c => raise c

/-- Memory's action for STORE and STOREP (R92). -/
def memoryStore (s : State) : Out :=
  match s.memWrite s.lM.memoryAddress s.lM.rs1Value with
  | .ok t => .next (t.toWriteback s.lM)
  | .error c => raise c

/-- Memory's action for HALT: `L_M` is kept and shut down (R92, R97). -/
def memoryHalt (s : State) : Out :=
  .next { s with lW := s.lM.payload, lM := { s.lM with interrupted := true } }

/-! ### Writeback (`40_pipeline_stages.md` R93 to R96) -/

/-- What Writeback does after the register writes, every opcode alike: release, condition-code commit, count, empty
the latch (R93). -/
def State.retire (s : State) (i : Instr) : State :=
  { ((s.release (destsOf i)).commitFlags i) with icount := s.icount + 1, lW := Latch.bubble }

/-- Writeback of an opcode that writes no register (R93). -/
def commitNothing (i : Instr) (s : State) : Out := .next (s.retire i)

/-- Writeback of an opcode that writes `result` to `rd` (R93). -/
def commitResult (i : Instr) (rd : Reg) (s : State) : Out :=
  .next ((s.writeReg rd s.lW.result).retire i)

/-- Writeback of STOREP: the incremented base (R93). -/
def commitBase (i : Instr) (base : Reg) (s : State) : Out :=
  .next ((s.writeReg base s.lW.baseNext).retire i)

/-- Writeback of LOADP: the incremented base, then the loaded word, which wins when they are the same register
(R93). -/
def commitBaseResult (i : Instr) (base rd : Reg) (s : State) : Out :=
  .next (((s.writeReg base s.lW.baseNext).writeReg rd s.lW.result).retire i)

/-- Writeback of HALT: the commit, then the halt signal, on which the sequencer sets `RUN_STATE` (R72, R93, R96). -/
def commitHalt (i : Instr) (s : State) : Out := .next { s.retire i with runState := .halted }

/-! ### Placing a program -/

/-- The instruction memory with record `r` at index `k`, where `k` is an index of it or the one after its last. -/
def placeAt (imem : List Record) (k : Nat) (r : Record) : List Record :=
  imem.take k ++ r :: imem.drop (k + 1)

/-- The state with record `r` where Fetch reads next: at `PC` in the loaded program, or, where `PC` names no place in
it or right behind it, as a program of one record at `PC`. Fetch is left free to read it: nothing held, no skip. -/
def State.placeRecord (s : State) (r : Record) : State :=
  let free := { s with lF := Latch.bubble, fSkip := false }
  match fetchIndex s.inputs.codeBase s.pc with
  | some k =>
    if k ≤ s.inputs.imem.length then { free with inputs := { s.inputs with imem := placeAt s.inputs.imem k r } }
    else { free with inputs := { s.inputs with imem := [r], codeBase := s.pc } }
  | none => { free with inputs := { s.inputs with imem := [r], codeBase := s.pc } }

end Sys2Proof.Machine
end

