-- ==== Sys2Proof/Machine/Arithmetic.lean ====
section
/-! DEFINITION. The arithmetic class, ADD SUB MUL DIV AND OR XOR: `41_arithmetic.md`. Each meaning is the instruction's
action in the stage under evaluation (`40_pipeline_stages.md` R98). -/

namespace Sys2Proof.Machine

/-- ADD (`41_arithmetic.md` R100, R101): `x[rd] <- wrap32(x[rs1] + x[rs2])`; flags, producer. -/
def execAdd (rd rs1 rs2 : Reg) (s : State) : Out :=
  match s.phase with
  | .fetch => fetchAction s
  | .decode => dispatch (.add rd rs1 rs2) s
  | .execute => executeProducer (addWords s.lE.rs1Value s.lE.rs2Value) s
  | .memory => memoryNothing s
  | .writeback => commitResult (.add rd rs1 rs2) rd s

/-- SUB (`41_arithmetic.md` R100, R102): `x[rd] <- wrap32(x[rs1] − x[rs2])`; flags, producer. -/
def execSub (rd rs1 rs2 : Reg) (s : State) : Out :=
  match s.phase with
  | .fetch => fetchAction s
  | .decode => dispatch (.sub rd rs1 rs2) s
  | .execute => executeProducer (subWords s.lE.rs1Value s.lE.rs2Value) s
  | .memory => memoryNothing s
  | .writeback => commitResult (.sub rd rs1 rs2) rd s

/-- MUL (`41_arithmetic.md` R100, R103): `x[rd] <- wrap32(x[rs1] * x[rs2])`; flags, producer. -/
def execMul (rd rs1 rs2 : Reg) (s : State) : Out :=
  match s.phase with
  | .fetch => fetchAction s
  | .decode => dispatch (.mul rd rs1 rs2) s
  | .execute => executeProducer (mulWords s.lE.rs1Value s.lE.rs2Value) s
  | .memory => memoryNothing s
  | .writeback => commitResult (.mul rd rs1 rs2) rd s

/-- DIV (`41_arithmetic.md` R100, R104): `x[rd] <- wrap32(trunc(x[rs1] / x[rs2]))`; flags, producer; a divisor of 0
raises `Fault(DivideByZero)` in Execute. -/
def execDiv (rd rs1 rs2 : Reg) (s : State) : Out :=
  match s.phase with
  | .fetch => fetchAction s
  | .decode => dispatch (.div rd rs1 rs2) s
  | .execute => if s.lE.rs2Value = 0#32 then raise .divideByZero
    else executeProducer (divWords s.lE.rs1Value s.lE.rs2Value) s
  | .memory => memoryNothing s
  | .writeback => commitResult (.div rd rs1 rs2) rd s

/-- AND (`41_arithmetic.md` R100, R105): bitwise, into `x[rd]`; flags, no producer. -/
def execAnd (rd rs1 rs2 : Reg) (s : State) : Out :=
  match s.phase with
  | .fetch => fetchAction s
  | .decode => dispatch (.and rd rs1 rs2) s
  | .execute => executeWriter (s.lE.rs1Value &&& s.lE.rs2Value) s
  | .memory => memoryNothing s
  | .writeback => commitResult (.and rd rs1 rs2) rd s

/-- OR (`41_arithmetic.md` R100, R106): bitwise, into `x[rd]`; flags, no producer. -/
def execOr (rd rs1 rs2 : Reg) (s : State) : Out :=
  match s.phase with
  | .fetch => fetchAction s
  | .decode => dispatch (.or rd rs1 rs2) s
  | .execute => executeWriter (s.lE.rs1Value ||| s.lE.rs2Value) s
  | .memory => memoryNothing s
  | .writeback => commitResult (.or rd rs1 rs2) rd s

/-- XOR (`41_arithmetic.md` R100, R107): bitwise, into `x[rd]`; flags, no producer. -/
def execXor (rd rs1 rs2 : Reg) (s : State) : Out :=
  match s.phase with
  | .fetch => fetchAction s
  | .decode => dispatch (.xor rd rs1 rs2) s
  | .execute => executeWriter (s.lE.rs1Value ^^^ s.lE.rs2Value) s
  | .memory => memoryNothing s
  | .writeback => commitResult (.xor rd rs1 rs2) rd s


end Sys2Proof.Machine
end

