-- ==== Sys2Proof/Machine/Compare.lean ====
section
/-! DEFINITION. The compare class, CMP CML: `45_compare.md`. -/

namespace Sys2Proof.Machine

/-- CMP (`45_compare.md` R132, R133): flags from `wrap32(x[rs1] − x[rs2])`; producer; no register is written. -/
def execCmp (rs1 rs2 : Reg) (s : State) : Out :=
  match s.phase with
  | .fetch => fetchAction s
  | .decode => dispatch (.cmp rs1 rs2) s
  | .execute => executeProducer (subWords s.lE.rs1Value s.lE.rs2Value) s
  | .memory => memoryNothing s
  | .writeback => commitNothing (.cmp rs1 rs2) s

/-- CML (`45_compare.md` R132, R134): flags from `wrap32(x[rs1] − imm)`; producer; no register is written. -/
def execCml (rs1 : Reg) (imm : Word) (s : State) : Out :=
  match s.phase with
  | .fetch => fetchAction s
  | .decode => dispatch (.cml rs1 imm) s
  | .execute => executeProducer (subWords s.lE.rs1Value imm) s
  | .memory => memoryNothing s
  | .writeback => commitNothing (.cml rs1 imm) s


end Sys2Proof.Machine
end

