-- ==== Sys2Proof/Machine/Control.lean ====
section
/-! DEFINITION. The control class, JUMP JALR BZ BNZ BP BNP BN BNN HALT NOP: `44_control.md`. -/

namespace Sys2Proof.Machine

/-- JUMP (`44_control.md` R119, R120): `PC <- wrap32(x[rs1] + imm)` with bits 1:0 cleared; no register is written. -/
def execJump (rs1 : Reg) (imm : Word) (s : State) : Out :=
  match s.phase with
  | .fetch => fetchAction s
  | .decode => dispatch (.jump rs1 imm) s
  | .execute => executeJump (jumpTarget s.lE.rs1Value imm) (jumpTarget s.lE.rs1Value imm) s
  | .memory => memoryNothing s
  | .writeback => commitNothing (.jump rs1 imm) s

/-- JALR (`44_control.md` R119, R121): JUMP, and `x[rd] <- wrap32(pc + 4)`, `pc` the JALR's own address. -/
def execJalr (rd rs1 : Reg) (imm : Word) (s : State) : Out :=
  match s.phase with
  | .fetch => fetchAction s
  | .decode => dispatch (.jalr rd rs1 imm) s
  | .execute => executeJump (jumpTarget s.lE.rs1Value imm) (nextPc s.lE.pc) s
  | .memory => memoryNothing s
  | .writeback => commitResult (.jalr rd rs1 imm) rd s

/-- BZ (`44_control.md` R159, R122, `40_pipeline_stages.md` R90): if `Z`, `PC <- wrap32(pc + imm)`. -/
def execBz (imm : Word) (s : State) : Out :=
  match s.phase with
  | .fetch => fetchAction s
  | .decode => dispatch (.bz imm) s
  | .execute => executeBranch s.z imm s
  | .memory => memoryNothing s
  | .writeback => commitNothing (.bz imm) s

/-- BNZ (`44_control.md` R159, R123, `40_pipeline_stages.md` R90): if not `Z`, `PC <- wrap32(pc + imm)`. -/
def execBnz (imm : Word) (s : State) : Out :=
  match s.phase with
  | .fetch => fetchAction s
  | .decode => dispatch (.bnz imm) s
  | .execute => executeBranch (!s.z) imm s
  | .memory => memoryNothing s
  | .writeback => commitNothing (.bnz imm) s

/-- BP (`44_control.md` R159, R124, `40_pipeline_stages.md` R90): if `P`, `PC <- wrap32(pc + imm)`. -/
def execBp (imm : Word) (s : State) : Out :=
  match s.phase with
  | .fetch => fetchAction s
  | .decode => dispatch (.bp imm) s
  | .execute => executeBranch s.p imm s
  | .memory => memoryNothing s
  | .writeback => commitNothing (.bp imm) s

/-- BNP (`44_control.md` R159, R125, `40_pipeline_stages.md` R90): if not `P`, `PC <- wrap32(pc + imm)`. -/
def execBnp (imm : Word) (s : State) : Out :=
  match s.phase with
  | .fetch => fetchAction s
  | .decode => dispatch (.bnp imm) s
  | .execute => executeBranch (!s.p) imm s
  | .memory => memoryNothing s
  | .writeback => commitNothing (.bnp imm) s

/-- BN (`44_control.md` R159, R126, `40_pipeline_stages.md` R90): if `N`, `PC <- wrap32(pc + imm)`. -/
def execBn (imm : Word) (s : State) : Out :=
  match s.phase with
  | .fetch => fetchAction s
  | .decode => dispatch (.bn imm) s
  | .execute => executeBranch s.n imm s
  | .memory => memoryNothing s
  | .writeback => commitNothing (.bn imm) s

/-- BNN (`44_control.md` R159, R127, `40_pipeline_stages.md` R90): if not `N`, `PC <- wrap32(pc + imm)`. -/
def execBnn (imm : Word) (s : State) : Out :=
  match s.phase with
  | .fetch => fetchAction s
  | .decode => dispatch (.bnn imm) s
  | .execute => executeBranch (!s.n) imm s
  | .memory => memoryNothing s
  | .writeback => commitNothing (.bnn imm) s

/-- HALT (`44_control.md` R128, `40_pipeline_stages.md` R97): shuts the stages down behind it and stops the machine when it
commits. -/
def execHalt (s : State) : Out :=
  match s.phase with
  | .fetch => fetchAction s
  | .decode => dispatchHalt .halt s
  | .execute => executeHalt s
  | .memory => memoryHalt s
  | .writeback => commitHalt .halt s

/-- NOP (`44_control.md` R129): every stage forwards it; it is counted and does nothing else. -/
def execNop (s : State) : Out :=
  match s.phase with
  | .fetch => fetchAction s
  | .decode => dispatch .nop s
  | .execute => executeNothing s
  | .memory => memoryNothing s
  | .writeback => commitNothing .nop s


end Sys2Proof.Machine
end

