-- ==== Sys2Proof/Machine/MemoryOps.lean ====
section
/-! DEFINITION. The memory class, LOAD LOADP STORE STOREP: `43_memory_ops.md`. -/

namespace Sys2Proof.Machine

/-- LOAD (`43_memory_ops.md` R113, R114): `x[rd] <- DMEM[wrap32(x[rs1] + imm)]`. -/
def execLoad (rd rs1 : Reg) (imm : Word) (s : State) : Out :=
  match s.phase with
  | .fetch => fetchAction s
  | .decode => dispatch (.load rd rs1 imm) s
  | .execute => executeAddress s.lE.rs1Value imm s
  | .memory => memoryLoad s
  | .writeback => commitResult (.load rd rs1 imm) rd s

/-- LOADP (`43_memory_ops.md` R113, R115): LOAD, and `x[rs1] <- wrap32(x[rs1] + 4)`, written first. -/
def execLoadp (rd rs1 : Reg) (imm : Word) (s : State) : Out :=
  match s.phase with
  | .fetch => fetchAction s
  | .decode => dispatch (.loadp rd rs1 imm) s
  | .execute => executeAddressInc s.lE.rs1Value imm s
  | .memory => memoryLoad s
  | .writeback => commitBaseResult (.loadp rd rs1 imm) rs1 rd s

/-- STORE (`43_memory_ops.md` R113, R116): `DMEM[wrap32(x[rs2] + imm)] <- x[rs1]`. -/
def execStore (rs1 rs2 : Reg) (imm : Word) (s : State) : Out :=
  match s.phase with
  | .fetch => fetchAction s
  | .decode => dispatch (.store rs1 rs2 imm) s
  | .execute => executeAddress s.lE.rs2Value imm s
  | .memory => memoryStore s
  | .writeback => commitNothing (.store rs1 rs2 imm) s

/-- STOREP (`43_memory_ops.md` R113, R117): STORE, and `x[rs2] <- wrap32(x[rs2] + 4)`. -/
def execStorep (rs1 rs2 : Reg) (imm : Word) (s : State) : Out :=
  match s.phase with
  | .fetch => fetchAction s
  | .decode => dispatch (.storep rs1 rs2 imm) s
  | .execute => executeAddressInc s.lE.rs2Value imm s
  | .memory => memoryStore s
  | .writeback => commitBase (.storep rs1 rs2 imm) rs2 s


end Sys2Proof.Machine
end

