-- ==== Sys2Proof/Machine/MoveImmediate.lean ====
section
/-! DEFINITION. The move/immediate class, MOVC ADDL SUBL: `42_move_immediate.md`. -/

namespace Sys2Proof.Machine

/-- MOVC (`42_move_immediate.md` R109, R110): `x[rd] <- imm`; flags, no producer. -/
def execMovc (rd : Reg) (imm : Word) (s : State) : Out :=
  match s.phase with
  | .fetch => fetchAction s
  | .decode => dispatch (.movc rd imm) s
  | .execute => executeWriter imm s
  | .memory => memoryNothing s
  | .writeback => commitResult (.movc rd imm) rd s

/-- ADDL (`42_move_immediate.md` R109, R111): `x[rd] <- wrap32(x[rs1] + imm)`; flags, producer. -/
def execAddl (rd rs1 : Reg) (imm : Word) (s : State) : Out :=
  match s.phase with
  | .fetch => fetchAction s
  | .decode => dispatch (.addl rd rs1 imm) s
  | .execute => executeProducer (addWords s.lE.rs1Value imm) s
  | .memory => memoryNothing s
  | .writeback => commitResult (.addl rd rs1 imm) rd s

/-- SUBL (`42_move_immediate.md` R109, R112): `x[rd] <- wrap32(x[rs1] − imm)`; flags, producer. -/
def execSubl (rd rs1 : Reg) (imm : Word) (s : State) : Out :=
  match s.phase with
  | .fetch => fetchAction s
  | .decode => dispatch (.subl rd rs1 imm) s
  | .execute => executeProducer (subWords s.lE.rs1Value imm) s
  | .memory => memoryNothing s
  | .writeback => commitResult (.subl rd rs1 imm) rd s


end Sys2Proof.Machine
end

