-- ==== Sys2Proof/Machine/Cycle.lean ====
section
/-! DEFINITION. The cycle sequencer: the guards of the five stage functions, which run the meaning of their occupant,
and one pass over them in reverse pipeline order (`40_pipeline_stages.md` R72 to R74). -/

namespace Sys2Proof.Machine

/-- Evaluating the stage function of `st` on its occupant: the occupant's meaning in that phase, or, at the guard,
nothing (`40_pipeline_stages.md` R74). -/
def runStage (st : Stage) (occupant : Option Instr) (s : State) : Out :=
  match occupant with
  | some i => andThen (exec i (s.during st)) (fun t => .next (t.during .fetch))
  | none => .next s

/-- The occupant a stage acts on: none at the common guard (`40_pipeline_stages.md` R74). -/
def Latch.active (l : Latch) : Option Instr := if l.empty || l.interrupted then none else some l.instr

/-- `Writeback()` (R93). -/
def writebackStage (s : State) : Out := runStage .writeback s.lW.active s

/-- `Memory()` (R92). -/
def memoryStage (s : State) : Out := runStage .memory s.lM.active s

/-- `Execute()` (R86), with the guard of a stalled latch (R88; unreachable from reset). -/
def executeStage (s : State) : Out := runStage .execute (if s.lE.stalled then none else s.lE.active) s

/-- `Decode()` (R82). -/
def decodeStage (s : State) : Out := runStage .decode s.lD.active s

/-- The instruction Fetch works on: the one held in `L_F`, else the one at `PC`, if any (R79, R80). -/
def State.fetchTarget (s : State) : Option Instr :=
  if s.lF.empty then s.iFetch.map Record.toInstr else some s.lF.instr

/-- `Fetch()` (R79): shut down, or held for one pass after a redirect, or at work. -/
def fetchStage (s : State) : Out :=
  if s.lF.interrupted then .next s
  else if s.fSkip then .next { s with fSkip := false }
  else runStage .fetch s.fetchTarget s

/-- `CLK <- CLK + 1` at the end of a complete pass (R72). -/
def State.tick (s : State) : State := { s with clk := s.clk + 1 }

/-- What a pass does once Writeback has run without a halt signal (R72). -/
def restOfPass (s : State) : Out :=
  andThen (memoryStage s) fun s1 =>
  andThen (executeStage s1) fun s2 =>
  andThen (decodeStage s2) fun s3 =>
  andThen (fetchStage s3) fun s4 => .next s4.tick

/-- One pass of the five stage functions; a halt signal ends it after Writeback (R72). -/
def pass (s : State) : Out :=
  andThen (writebackStage s) fun s1 =>
  if s1.runState = .halted then .next s1 else restOfPass s1

/-- `ICOUNT ≥ RETIRE_LIMIT`, when there is a limit (R72). -/
def State.retireLimitReached (s : State) : Bool :=
  match s.inputs.retireLimit with
  | some k => k ≤ s.icount
  | none => false

/-- `Cycle()`, the next-state function (R72): the stop tests at the boundary, then the pass, a fault in it undoing it
(`60_exceptions.md` R137). -/
def cycle (s : State) : Out :=
  if s.runState ≠ .running then .next s
  else if s.inputs.cycleLimit < s.clk then .next { s with runState := .budgetExhausted }
  else if s.retireLimitReached then .next { s with runState := .retireLimit }
  else catchFault s (pass s)

end Sys2Proof.Machine
end

