-- ==== Sys2Proof/Machine/Step.lean ====
section
/-! DEFINITION. The step of the machine is one clock cycle (`00_scope.md` R6, `40_pipeline_stages.md` R72), and how the
host places an instruction where the next step fetches. -/

namespace Sys2Proof.Machine

/-- One step: one clock cycle, `Cycle()`. -/
def step (s : State) : Host.Outcome State Fault Refusal := cycle s

/-- `s` with the record of the table word `w` where Fetch reads next, so that the next step fetches it. A word that
names no instruction cannot be loaded (`30_encoding.md` R69) and changes nothing. Log entry 2. -/
def State.withFetchWord (s : State) (nbits w : Nat) : State :=
  match tableRecord nbits w with
  | some r => s.placeRecord r
  | none => s

end Sys2Proof.Machine
end

