-- ==== Sys2Proof/Machine/Boot.lean ====
section
/-! DEFINITION. Construction of a machine from its inputs: `70_reset_and_hazards.md` R148 to R151. -/

namespace Sys2Proof.Machine

/-- The checked records of a program, if every one of them can be loaded (`70_reset_and_hazards.md` R151). -/
def loadRecords : List RawRecord → Option (List Record)
  | [] => some []
  | r :: rs =>
    match r.toRecord, loadRecords rs with
    | some q, some qs => some (q :: qs)
    | _, _ => none

/-- The constructor of R151: no machine unless the inputs are acceptable; else the reset state for them (R148). -/
def construct (p : RawInputs) : Option State :=
  if p.wellFormed then
    match loadRecords p.program with
    | some records =>
      some (State.resetWith
        { imem := records, codeBase := p.codeBase, dmemWords := p.dmemWords,
          cycleLimit := p.cycleLimit, retireLimit := p.retireLimit })
    | none => none
  else none

/-- A launch state: reset, with a caller's register file, condition codes and data memory in place of the zeros
(`10_state.md` R40, last paragraph). -/
def launch (s : State) (x : Vector Word 32) (z n p : Bool) (dmem : Memory) : State :=
  { s with x := x, z := z, n := n, p := p, dmem := dmem }

/-- Reset: the one way out of a terminal state; every piece of state back at its reset value, the inputs kept (R148,
`60_exceptions.md` R142). -/
def State.resetAgain (s : State) : State := State.resetWith s.inputs

end Sys2Proof.Machine
end

