-- ==== Sys2Proof/Machine/Sequential.lean ====
section
/-! DEFINITION. `Seq`, the one-at-a-time machine of `40_pipeline_stages.md` R99: what the pipeline computes, with no
pipeline. Each effect follows the "Net effect" line of its instruction in files 41 to 45. The step of the model is
the clock cycle of `Cycle.lean`; nothing here is called by it. -/

namespace Sys2Proof.Machine

/-- The state of `Seq` (`40_pipeline_stages.md` R99), with the inputs it reads. -/
structure SeqState where
  inputs : Inputs
  pc : Word
  x : Vector Word 32
  z : Bool
  n : Bool
  p : Bool
  dmem : Memory
  /-- `n` of R99: the instructions carried out -/
  count : Nat
  deriving DecidableEq, Repr

/-- The end of one step of `Seq`, or of a run of it. -/
inductive SeqOutcome where
  | next (s : SeqState)
  | halted (s : SeqState)
  | fault (c : Fault)
  | ranOff (s : SeqState)
  deriving DecidableEq, Repr

/-- `x[r]`. -/
def SeqState.reg (s : SeqState) (r : Reg) : Word := s.x[r.val]

/-- One instruction carried out, the flow going on to the next address. -/
def SeqState.advance (s : SeqState) : SeqState := { s with pc := nextPc s.pc, count := s.count + 1 }

/-- HALT carried out: counted, and `pc` left at the HALT, because `Seq` stops before it moves `pc` (R99). -/
def SeqState.stop (s : SeqState) : SeqState := { s with count := s.count + 1 }

/-- One instruction carried out, the flow going on to `t`. -/
def SeqState.goTo (s : SeqState) (t : Word) : SeqState := { s with pc := t, count := s.count + 1 }

/-- `x[r] <- v`. -/
def SeqState.put (s : SeqState) (r : Reg) (v : Word) : SeqState := { s with x := s.x.set r.val v }

/-- `SetZNP(v)`. -/
def SeqState.flags (s : SeqState) (v : Word) : SeqState :=
  { s with z := zeroFlag v, n := negativeFlag v, p := positiveFlag v }

/-- `addr`, read as signed, is a word of data memory (`20_memory.md` R42). -/
def SeqState.addressOk (s : SeqState) (addr : Word) : Bool :=
  0 ≤ addr.toInt && addr.toInt < (s.inputs.dmemWords : Int)

/-- `x[d] <- v; SetZNP(v)`. -/
def seqAlu (s : SeqState) (d : Reg) (v : Word) : Except Fault SeqState := .ok ((s.put d v).flags v).advance

/-- `k v` for the word `v` loaded from `addr`, or the address fault. -/
def seqLoad (s : SeqState) (addr : Word) (k : Word → SeqState) : Except Fault SeqState :=
  if s.addressOk addr then .ok (k (Memory.read s.dmem addr.toInt.toNat)).advance
  else .error .dataAddressOutOfRange

/-- `DMEM[addr] <- v`, then `k`, or the address fault. -/
def seqStore (s : SeqState) (addr v : Word) (k : SeqState → SeqState) : Except Fault SeqState :=
  if s.addressOk addr then .ok (k { s with dmem := Memory.write s.dmem addr.toInt.toNat v }).advance
  else .error .dataAddressOutOfRange

/-- `if test: PC <- wrap32(pc + imm)`. -/
def seqBranch (s : SeqState) (test : Bool) (imm : Word) : Except Fault SeqState :=
  if test then .ok (s.goTo (branchTarget s.pc imm)) else .ok s.advance

/-- The net effect of one instruction, at once: the columns of R98, `pc` being the instruction's own address. -/
def seqEffect (i : Instr) (s : SeqState) : Except Fault SeqState :=
  match i with
  | .add d a b => seqAlu s d (addWords (s.reg a) (s.reg b))
  | .sub d a b => seqAlu s d (subWords (s.reg a) (s.reg b))
  | .mul d a b => seqAlu s d (mulWords (s.reg a) (s.reg b))
  | .div d a b =>
    if s.reg b = 0#32 then .error .divideByZero else seqAlu s d (divWords (s.reg a) (s.reg b))
  | .and d a b => seqAlu s d (s.reg a &&& s.reg b)
  | .or d a b => seqAlu s d (s.reg a ||| s.reg b)
  | .xor d a b => seqAlu s d (s.reg a ^^^ s.reg b)
  | .movc d imm => seqAlu s d imm
  | .addl d a imm => seqAlu s d (addWords (s.reg a) imm)
  | .subl d a imm => seqAlu s d (subWords (s.reg a) imm)
  | .load d a imm => seqLoad s (effectiveAddress (s.reg a) imm) (fun v => s.put d v)
  | .loadp d a imm =>
    seqLoad s (effectiveAddress (s.reg a) imm) (fun v => (s.put a (nextBase (s.reg a))).put d v)
  | .store a b imm => seqStore s (effectiveAddress (s.reg b) imm) (s.reg a) (fun t => t)
  | .storep a b imm =>
    seqStore s (effectiveAddress (s.reg b) imm) (s.reg a) (fun t => t.put b (nextBase (s.reg b)))
  | .jump a imm => .ok (s.goTo (jumpTarget (s.reg a) imm))
  | .jalr d a imm => .ok ((s.put d (nextPc s.pc)).goTo (jumpTarget (s.reg a) imm))
  | .bz imm => seqBranch s s.z imm
  | .bnz imm => seqBranch s (!s.z) imm
  | .bp imm => seqBranch s s.p imm
  | .bnp imm => seqBranch s (!s.p) imm
  | .bn imm => seqBranch s s.n imm
  | .bnn imm => seqBranch s (!s.n) imm
  | .halt => .ok s.stop
  | .nop => .ok s.advance
  | .cmp a b => .ok (s.flags (subWords (s.reg a) (s.reg b))).advance
  | .cml a imm => .ok (s.flags (subWords (s.reg a) imm)).advance

/-- `IFetch(pc)` (`20_memory.md` R45). -/
def SeqState.iFetch (s : SeqState) : Option Record :=
  match fetchIndex s.inputs.codeBase s.pc with
  | some k => s.inputs.imem[k]?
  | none => none

/-- One step of `Seq` (R99). -/
def seqStep (s : SeqState) : SeqOutcome :=
  match s.iFetch with
  | none => .ranOff s
  | some r =>
    match seqEffect r.toInstr s with
    | .error c => .fault c
    | .ok t => if r.toInstr = .halt then .halted t else .next t

/-- At most `k` steps of `Seq`, ending where it stops. -/
def seqRun : Nat → SeqState → SeqOutcome
  | 0, s => .next s
  | k + 1, s =>
    match seqStep s with
    | .next t => seqRun k t
    | .halted t => .halted t
    | .fault c => .fault c
    | .ranOff t => .ranOff t

/-- The `Seq` state that a machine with nothing in flight shows. -/
def State.seqView (s : State) : SeqState where
  inputs := s.inputs
  pc := s.pc
  x := s.x
  z := s.z
  n := s.n
  p := s.p
  dmem := s.dmem
  count := s.icount

end Sys2Proof.Machine
end

