-- ==== Sys2Proof/Safety.lean ====
section
/-! DEFINITION. The terms the claims use: the states of a latch (`10_state.md` R37), the invariant of the pipeline
(`70_reset_and_hazards.md` R153), the states a run starts from, and an instruction carried through the stages. -/

namespace Sys2Proof.Machine

/-! ### The states of a latch (`10_state.md` R37) -/

/-- "Empty", in the one form the model gives it (R34). -/
def Latch.IsEmpty (l : Latch) : Prop := l = Latch.bubble

/-- "Occupied". -/
def Latch.IsOccupied (l : Latch) : Prop := l.empty = false ∧ l.stalled = false ∧ l.interrupted = false

/-- "Stalled". -/
def Latch.IsStalled (l : Latch) : Prop := l.empty = false ∧ l.stalled = true ∧ l.interrupted = false

/-- "Shut down (HALT passed)". -/
def Latch.IsShut (l : Latch) : Prop :=
  l.empty = false ∧ l.stalled = false ∧ l.interrupted = true ∧ l.opcode = .HALT

/-- "Shut down (Fetch)". -/
def Latch.IsShutFetch (l : Latch) : Prop := l.empty = true ∧ l.stalled = false ∧ l.interrupted = true

/-- The latch holds a HALT, shut down or not. -/
def Latch.HoldsHalt (l : Latch) : Prop := l.empty = false ∧ l.opcode = .HALT

/-- 1 for an occupant, 0 for none. -/
def Latch.load (l : Latch) : Nat := if l.empty then 0 else 1

/-! ### The invariant (`70_reset_and_hazards.md` R153) -/

/-- What holds at every cycle boundary reachable from reset: R153 items 1 to 5, 8, 9 and the first sentences of 7 and
10, the table of R37, and the canonical form of data memory. -/
structure State.Inv (s : State) : Prop where
  /-- item 1 (`10_state.md` R25) -/
  readyTracks : ∀ r : Reg, s.isReady r = !(s.lE.writes r || s.lM.writes r || s.lW.writes r)
  /-- item 2 (`10_state.md` R29) -/
  flagsTrack : s.flagsValid = !(s.lM.isProducer || s.lW.isProducer)
  /-- R37, the row of `L_F` -/
  fetchShape : s.lF.IsEmpty ∨ s.lF.IsStalled ∨ s.lF.IsShutFetch
  /-- R37, the row of `L_D` -/
  decodeShape : s.lD.IsEmpty ∨ s.lD.IsOccupied ∨ s.lD.IsStalled ∨ s.lD.IsShut
  /-- R37, the row of `L_E`; item 3 -/
  executeShape : s.lE.IsEmpty ∨ s.lE.IsOccupied ∨ s.lE.IsShut
  /-- R37, the row of `L_M`; item 3 -/
  memoryShape : s.lM.IsEmpty ∨ s.lM.IsOccupied ∨ s.lM.IsShut
  /-- R37, the row of `L_W`; item 3 -/
  writebackShape : s.lW.IsEmpty ∨ s.lW.IsOccupied
  /-- item 3 -/
  noSkip : s.fSkip = false
  /-- item 4 -/
  heldFetch : s.lF.IsStalled → s.lD.IsStalled
  /-- item 5; and HALT never waits in Decode (R84) -/
  stalledDecode : s.lD.IsStalled → s.lE.IsEmpty ∧ s.lD.opcode ≠ .HALT
  /-- item 8: Fetch and Decode are shut down together -/
  shutTogether : s.lD.interrupted = s.lF.interrupted
  /-- item 8 -/
  shutExecute : s.lE.interrupted = true → s.lD.interrupted = true
  /-- item 8 -/
  shutMemory : s.lM.interrupted = true → s.lE.interrupted = true
  /-- R97: Decode is shut down once HALT is in Execute -/
  haltInExecute : s.lE.HoldsHalt → s.lD.interrupted = true
  /-- R97: Execute is shut down once HALT is in Memory -/
  haltInMemory : s.lM.HoldsHalt → s.lE.interrupted = true
  /-- R97: Memory is shut down once HALT is in Writeback -/
  haltInWriteback : s.lW.HoldsHalt → s.lM.interrupted = true
  /-- item 9 -/
  dispatchFreesFetch : s.lE.IsOccupied → s.lF.empty = true
  /-- item 7 -/
  oneFlag : (s.z && s.n) = false ∧ (s.z && s.p) = false ∧ (s.n && s.p) = false
  /-- item 10: `ICOUNT ≤ CLK − 1`, the occupant about to commit counted in -/
  countBelowClock : s.icount + s.lW.load + 1 ≤ s.clk
  /-- data memory is in its canonical form -/
  memoryWf : Memory.wf s.dmem = true
  /-- data memory lists only words that exist (`20_memory.md` R41) -/
  memoryWithin : Memory.within s.inputs.dmemWords s.dmem = true
  /-- the model's own field at a cycle boundary -/
  atBoundary : s.phase = .fetch

/-! ### Where a run starts -/

/-- Nothing in flight and no register pending: the state of the tracker and the latches at reset (`10_state.md`
R40). -/
structure State.Drained (s : State) : Prop where
  fetchEmpty : s.lF = Latch.bubble
  decodeEmpty : s.lD = Latch.bubble
  executeEmpty : s.lE = Latch.bubble
  memoryEmpty : s.lM = Latch.bubble
  writebackEmpty : s.lW = Latch.bubble
  allReady : ∀ r : Reg, s.isReady r = true
  flagsValid : s.flagsValid = true
  noSkip : s.fSkip = false
  running : s.runState = .running

/-- A launch state: reset for some inputs, but for the register file, the condition codes and data memory, which may
be a caller's (`10_state.md` R40, last paragraph). -/
structure State.Launched (s : State) : Prop extends s.Drained where
  atEntry : s.pc = s.inputs.codeBase
  clock : s.clk = 1
  count : s.icount = 0
  boundary : s.phase = .fetch

/-- The machine is about to evaluate a pass: running, and neither stop test of R72 fires. -/
structure State.WillPass (s : State) : Prop where
  running : s.runState = .running
  inBudget : s.clk ≤ s.inputs.cycleLimit
  inRetireLimit : s.retireLimitReached = false

/-- The state with another cycle budget. -/
def State.withCycleLimit (s : State) (k : Nat) : State := { s with inputs := { s.inputs with cycleLimit := k } }

/-! ### One instruction carried through the stages -/

/-- `i`, fetched, is in `L_D` and nothing older is in flight. -/
structure State.Entered (s : State) (i : Instr) : Prop where
  holds : s.lD.instr = i
  occupied : s.lD.IsOccupied
  executeEmpty : s.lE = Latch.bubble
  memoryEmpty : s.lM = Latch.bubble
  writebackEmpty : s.lW = Latch.bubble
  allReady : ∀ r : Reg, s.isReady r = true
  flagsValid : s.flagsValid = true
  pcAfter : s.pc = nextPc s.lD.pc

/-- `i` goes from `s` through Decode, Execute, Memory and Writeback, each answering a next state, the last one `t`. -/
def Carried (i : Instr) (s t : State) : Prop :=
  ∃ s1 s2 s3, exec i (s.during .decode) = .next s1 ∧ exec i (s1.during .execute) = .next s2 ∧
    exec i (s2.during .memory) = .next s3 ∧ exec i (s3.during .writeback) = .next t

/-- The same four stage actions, up to the first fault. -/
def carry (i : Instr) (s : State) : Out :=
  andThen (exec i (s.during .decode)) fun s1 =>
  andThen (exec i (s1.during .execute)) fun s2 =>
  andThen (exec i (s2.during .memory)) fun s3 =>
  exec i (s3.during .writeback)

/-- What an instruction carried through leaves of the machine besides `PC`, `x`, the condition codes, data memory and
Fetch's latch and hold: one more commit, nothing in flight or pending, and the model's own field at the stage that ran
last. -/
structure SettledAfter (s t : State) : Prop where
  inputs : t.inputs = s.inputs
  clock : t.clk = s.clk
  count : t.icount = s.icount + 1
  ready : t.ready = s.ready
  flagsValid : t.flagsValid = s.flagsValid
  decodeEmpty : t.lD = Latch.bubble
  executeEmpty : t.lE = Latch.bubble
  memoryEmpty : t.lM = Latch.bubble
  writebackEmpty : t.lW = Latch.bubble
  running : t.runState = s.runState
  lastStage : t.phase = .writeback

/-- Fetch's latch and hold are unchanged. -/
def FetchKept (s t : State) : Prop := t.lF = s.lF ∧ t.fSkip = s.fSkip

/-- Fetch's latch is emptied and Fetch held for the pass: what a redirect leaves (`40_pipeline_stages.md` R89). -/
def FetchFlushed (t : State) : Prop := t.lF = Latch.bubble ∧ t.fSkip = true

/-- Every register but those of `rs` is unchanged. -/
def RegsKept (s t : State) (rs : List Reg) : Prop := ∀ r : Reg, r ∉ rs → t.readReg r = s.readReg r

/-- The condition codes are unchanged. -/
def CodesKept (s t : State) : Prop := t.z = s.z ∧ t.n = s.n ∧ t.p = s.p

/-- The condition codes of a value (`10_state.md` R28). -/
def CodesOf (t : State) (v : Word) : Prop :=
  (t.z = true ↔ v.toInt = 0) ∧ (t.n = true ↔ v.toInt < 0) ∧ (t.p = true ↔ v.toInt > 0)

/-- Every word of data memory reads as before. -/
def MemoryKept (s t : State) : Prop := ∀ a : Nat, Memory.read t.dmem a = Memory.read s.dmem a

/-! ### What a pass is about to do -/

/-- A HALT commits in this pass (R93). -/
def State.haltCommits (s : State) : Bool := decide (s.lW.active = some .halt)

/-- Whether the instruction accesses data memory (`20_memory.md` R49). -/
def isMemoryOp : Instr → Bool
  | .load _ _ _ | .loadp _ _ _ | .store _ _ _ | .storep _ _ _ => true
  | .add _ _ _ | .sub _ _ _ | .mul _ _ _ | .div _ _ _ | .and _ _ _ | .or _ _ _ | .xor _ _ _ => false
  | .movc _ _ | .addl _ _ _ | .subl _ _ _ | .jump _ _ | .jalr _ _ _ => false
  | .bz _ | .bnz _ | .bp _ | .bnp _ | .bn _ | .bnn _ | .halt | .nop | .cmp _ _ | .cml _ _ => false

/-- Whether the instruction writes data memory. -/
def isStore : Instr → Bool
  | .store _ _ _ | .storep _ _ _ => true
  | .load _ _ _ | .loadp _ _ _ => false
  | .add _ _ _ | .sub _ _ _ | .mul _ _ _ | .div _ _ _ | .and _ _ _ | .or _ _ _ | .xor _ _ _ => false
  | .movc _ _ | .addl _ _ _ | .subl _ _ _ | .jump _ _ | .jalr _ _ _ => false
  | .bz _ | .bnz _ | .bp _ | .bnp _ | .bn _ | .bnn _ | .halt | .nop | .cmp _ _ | .cml _ _ => false

/-- The condition of `Fault(DataAddressOutOfRange)` (`60_exceptions.md` R138). -/
def State.badAddress (s : State) : Bool :=
  match s.lM.active with
  | some i => isMemoryOp i && !s.dataAddressOk s.lM.memoryAddress
  | none => false

/-- The occupant Execute acts on (R86, R88). -/
def State.executing (s : State) : Option Instr := if s.lE.stalled then none else s.lE.active

/-- The condition of `Fault(DivideByZero)` (`60_exceptions.md` R138). -/
def State.zeroDivisor (s : State) : Bool :=
  match s.executing with
  | some (.div _ _ _) => s.lE.rs2Value == 0#32
  | _ => false

/-- Where the instruction in Execute redirects to, if it does (R90, R91). -/
def State.redirectTarget (s : State) : Option Word :=
  let branch (taken : Bool) (imm : Word) : Option Word :=
    if taken then some (wrap32 (s.lE.pc.toInt + imm.toInt)) else none
  match s.executing with
  | some (.jump _ imm) => some (wrap32 (s.lE.rs1Value.toInt + imm.toInt) &&& 0xFFFFFFFC#32)
  | some (.jalr _ _ imm) => some (wrap32 (s.lE.rs1Value.toInt + imm.toInt) &&& 0xFFFFFFFC#32)
  | some (.bz imm) => branch s.z imm
  | some (.bnz imm) => branch (!s.z) imm
  | some (.bp imm) => branch s.p imm
  | some (.bnp imm) => branch (!s.p) imm
  | some (.bn imm) => branch s.n imm
  | some (.bnn imm) => branch (!s.n) imm
  | _ => none

/-! ### The bits a format reads -/

/-- The bits of the word that the instruction's format reads (`30_encoding.md` R59 to R67): the opcode, and of `rd`,
`rs1`, `rs2`, `imm` those the format names. -/
def formatMask : Instr → BitVec 64
  | .add _ _ _ | .sub _ _ _ | .mul _ _ _ | .div _ _ _ | .and _ _ _ | .or _ _ _ | .xor _ _ _ =>
    0xFFFFF00000000000#64
  | .movc _ _ => 0xFFC00000FFFFFFFF#64
  | .addl _ _ _ | .subl _ _ _ | .load _ _ _ | .loadp _ _ _ | .jalr _ _ _ => 0xFFFE0000FFFFFFFF#64
  | .store _ _ _ | .storep _ _ _ => 0xF83FF000FFFFFFFF#64
  | .jump _ _ | .cml _ _ => 0xF83E0000FFFFFFFF#64
  | .bz _ | .bnz _ | .bp _ | .bnp _ | .bn _ | .bnn _ => 0xF8000000FFFFFFFF#64
  | .halt | .nop => 0xF800000000000000#64
  | .cmp _ _ => 0xF83FF00000000000#64

end Sys2Proof.Machine
end

