-- ==== Sys2Proof/Certificates/Slice0/Obligations.lean ====
section
/-! DEFINITION. The statements for the provers. Each docstring names the rule of the spec the statement formalises.

Where a statement speaks of `phase` or `during`, it speaks of the model's own field (log entry 1): which of its five
stage actions, those of `40_pipeline_stages.md` R98, an instruction is to perform. No statement rests on the cycle
budget or the empty program of `State.reset` (log entries 2 and 3). -/

open Sys2Proof Sys2Proof.Machine

/-! ## Encoding -/

/-- `30_encoding.md` R71: decoding the canonical word of an instruction gives it back, every operand at every value. -/
def Obligations.DecodeOfEncodeIsTheInstruction : Prop :=
  ∀ i : Instr, decode (encode i) = .ok i

/-- `30_encoding.md` R71, whole: the fields decode reads, the formula of encode, the two round trips, the canonical
encoding, the worked examples, and the match and mask of the opcode table. -/
def Obligations.WordFormOfRecords : Prop :=
  (∀ w : BitVec 64, 25 < (w >>> 59).toNat → ∃ e, decodeRecord w = .error e) ∧
  (∀ w : BitVec 64, (w >>> 59).toNat ≤ 25 → ∃ op,
    Opcode.ofNumber (w >>> 59).toNat = some op ∧
    decodeRecord w = .ok ⟨op, ⟨(w >>> 54).toNat % 32, Nat.mod_lt _ (Nat.zero_lt_succ 31)⟩,
      ⟨(w >>> 49).toNat % 32, Nat.mod_lt _ (Nat.zero_lt_succ 31)⟩,
      ⟨(w >>> 44).toNat % 32, Nat.mod_lt _ (Nat.zero_lt_succ 31)⟩, w.setWidth 32⟩) ∧
  (∀ r : Record, (encodeRecord r).toNat =
    r.opcode.number * 2 ^ 59 + r.rd.val * 2 ^ 54 + r.rs1.val * 2 ^ 49 + r.rs2.val * 2 ^ 44 + r.imm.toNat) ∧
  (∀ r : Record, decodeRecord (encodeRecord r) = .ok r) ∧
  (∀ w : BitVec 64, (∃ r, decodeRecord w = .ok r ∧ encodeRecord r = w) ↔
    ((w >>> 32).toNat % 4096 = 0 ∧ (w >>> 59).toNat ≤ 25)) ∧
  (∀ i : Instr, encode i &&& formatMask i = encode i) ∧
  encodeRecord ⟨.MOVC, 0, 0, 0, 5#32⟩ = 0x3800000000000005#64 ∧
  encodeRecord ⟨.ADD, 2, 1, 1, 0#32⟩ = 0x0082100000000000#64 ∧
  encodeRecord ⟨.STORE, 0, 1, 2, 0#32⟩ = 0x6002200000000000#64 ∧
  encodeRecord ⟨.LOAD, 3, 2, 0, 0#32⟩ = 0x50C4000000000000#64 ∧
  encodeRecord ⟨.BNZ, 0, 0, 0, wrap32 (-12)⟩ = 0x88000000FFFFFFF4#64 ∧
  encodeRecord ⟨.HALT, 0, 0, 0, 0#32⟩ = 0xB000000000000000#64 ∧
  encodeRecord ⟨.NOP, 0, 0, 0, 0#32⟩ = 0xB800000000000000#64 ∧
  encodeRecord ⟨.CML, 0, 1, 0, 5#32⟩ = 0xC802000000000005#64 ∧
  (∀ (w : BitVec 64) (r : Record), decodeRecord w = .ok r →
    w &&& 0xF800000000000000#64 = BitVec.ofNat 64 (r.opcode.number * 2 ^ 59))

/-- `30_encoding.md` R59 to R67, R69: a field a format ignores, and the reserved bits, are don't-care on read. -/
def Obligations.IgnoredBitsAreDontCare : Prop :=
  ∀ (v w : BitVec 64) (i : Instr),
    decode w = .ok i → v &&& formatMask i = w &&& formatMask i → decode v = .ok i

/-- `30_encoding.md` R69: exactly the opcode numbers 26 to 31 are invalid. The spec says no more than that; the name
and the number in the error are the model's choice (log entry 16). -/
def Obligations.ReservedOpcodesAreRejectedByName : Prop :=
  ∀ w : BitVec 64,
    (25 < (w >>> 59).toNat → decode w = .error (.reservedOpcode (w >>> 59).toNat)) ∧
    ((w >>> 59).toNat ≤ 25 → ∃ i, decode w = .ok i)

/-- Words written out from the spec's own examples decode to the instructions they stand for: `30_encoding.md` R71,
`44_control.md` R120, R121, `43_memory_ops.md` R115, R117. -/
def Obligations.ExampleWordsDecode : Prop :=
  decode 0x3800000000000005#64 = .ok (.movc 0 5#32) ∧
  decode 0x0082100000000000#64 = .ok (.add 2 1 1) ∧
  decode 0x6002200000000000#64 = .ok (.store 1 2 0#32) ∧
  decode 0x50C4000000000000#64 = .ok (.load 3 2 0#32) ∧
  decode 0x58C4000000000002#64 = .ok (.loadp 3 2 2#32) ∧
  decode 0x6802200000000003#64 = .ok (.storep 1 2 3#32) ∧
  decode 0x700200000000000A#64 = .ok (.jump 1 10#32) ∧
  decode 0x794200000000000C#64 = .ok (.jalr 5 1 12#32) ∧
  decode 0x88000000FFFFFFF4#64 = .ok (.bnz (wrap32 (-12))) ∧
  decode 0xC802000000000005#64 = .ok (.cml 1 5#32)

/-! ## Construction and reset -/

/-- `70_reset_and_hazards.md` R151: what the constructor refuses, and nothing else. -/
def Obligations.ConstructorRefusesExactlyBadInputs : Prop :=
  ∀ p : RawInputs, construct p = none ↔
    (p.program.length = 0 ∨
      (∃ r ∈ p.program, 25 < r.opcode ∨ 32 ≤ r.rd ∨ 32 ≤ r.rs1 ∨ 32 ≤ r.rs2) ∨
      ¬ (4 : Int) ∣ p.codeBase.toInt ∨
      p.codeBase.toInt + 4 * (p.program.length : Int) > 2 ^ 31 - 1 ∨
      p.dmemWords = 0 ∨ p.dmemWords > 2 ^ 31)

/-- `70_reset_and_hazards.md` R149 and `10_state.md` R40: the value of every piece of state after reset, for every
input a machine can be constructed from; the inputs are those given. -/
def Obligations.ResetValuesOfEveryConstructedMachine : Prop :=
  ∀ (p : RawInputs) (s : State), construct p = some s →
    s.pc = s.inputs.codeBase ∧ (∀ r : Reg, s.readReg r = 0#32) ∧ (∀ r : Reg, s.isReady r = true) ∧
    s.z = false ∧ s.n = false ∧ s.p = false ∧ s.flagsValid = true ∧ s.clk = 1 ∧ s.icount = 0 ∧
    s.runState = .running ∧ s.fSkip = false ∧
    s.lF = Latch.bubble ∧ s.lD = Latch.bubble ∧ s.lE = Latch.bubble ∧ s.lM = Latch.bubble ∧ s.lW = Latch.bubble ∧
    (∀ a : Nat, Memory.read s.dmem a = 0#32) ∧
    s.inputs.codeBase = p.codeBase ∧ s.inputs.dmemWords = p.dmemWords ∧ s.inputs.cycleLimit = p.cycleLimit ∧
    s.inputs.retireLimit = p.retireLimit ∧ s.inputs.imem.length = p.program.length ∧
    (∀ k : Nat, s.inputs.imem[k]? = p.program[k]?.bind RawRecord.toRecord)

/-! ## The step -/

/-- `40_pipeline_stages.md` R72, R79: with nothing in the machine, a step is the fetch action of the instruction the
record at `PC` decodes to, and the clock's tick; the instruction is then in `L_D`, `PC` has moved past it, and nothing
else has changed. -/
def Obligations.StepFetchesAndRunsTheDecodedInstruction : Prop :=
  ∀ (s : State) (w : BitVec 64) (r : Record) (i : Instr),
    s.WillPass → s.Drained → decodeRecord w = .ok r → decode w = .ok i → s.iFetch = some r →
    ∃ t, exec i (s.during .fetch) = .next t ∧ step s = .next (t.during .fetch).tick ∧
      (t.during .fetch).tick = { s with
        lD := Latch.fetched r s.pc, pc := wrap32 (s.pc.toInt + 4), clk := s.clk + 1, phase := .fetch } ∧
      (Latch.fetched r s.pc).instr = i

/-- `40_pipeline_stages.md` R72, R74: a step that evaluates a pass runs, in the order Writeback, Memory, Execute,
Decode, Fetch, the meaning of each stage's occupant; a stage that is empty or shut down does nothing. -/
def Obligations.StepRunsTheOccupantsInReverseOrder : Prop :=
  (∀ s : State, s.WillPass →
    step s = catchFault s (andThen (writebackStage s) fun s1 =>
      if s1.runState = .halted then .next s1
      else andThen (memoryStage s1) fun s2 => andThen (executeStage s2) fun s3 =>
        andThen (decodeStage s3) fun s4 => andThen (fetchStage s4) fun s5 =>
          .next { s5 with clk := s5.clk + 1 })) ∧
  (∀ (s : State) (i : Instr), s.lW.active = some i →
    writebackStage s = andThen (exec i (s.during .writeback)) fun t => .next (t.during .fetch)) ∧
  (∀ (s : State) (i : Instr), s.lM.active = some i →
    memoryStage s = andThen (exec i (s.during .memory)) fun t => .next (t.during .fetch)) ∧
  (∀ (s : State) (i : Instr), s.lE.active = some i → s.lE.stalled = false →
    executeStage s = andThen (exec i (s.during .execute)) fun t => .next (t.during .fetch)) ∧
  (∀ (s : State) (i : Instr), s.lD.active = some i →
    decodeStage s = andThen (exec i (s.during .decode)) fun t => .next (t.during .fetch)) ∧
  (∀ (s : State) (i : Instr), s.lF.interrupted = false → s.fSkip = false → s.fetchTarget = some i →
    fetchStage s = andThen (exec i (s.during .fetch)) fun t => .next (t.during .fetch)) ∧
  (∀ s : State, (s.lW.active = none → writebackStage s = .next s) ∧ (s.lM.active = none → memoryStage s = .next s) ∧
    (s.lE.active = none → executeStage s = .next s) ∧ (s.lD.active = none → decodeStage s = .next s) ∧
    (s.lF.interrupted = true → fetchStage s = .next s) ∧
    (s.lF.interrupted = false → s.fSkip = true → fetchStage s = .next { s with fSkip := false }) ∧
    (s.lF.interrupted = false → s.fSkip = false → s.fetchTarget = none → fetchStage s = .next s))

/-- No instruction is refused, no step is refused, and every fault is caught: from every state there is a next state
(`70_reset_and_hazards.md` R157, `40_pipeline_stages.md` R72). -/
def Obligations.EveryStateHasANextState : Prop :=
  (∀ (i : Instr) (s : State) (r : Refusal), exec i s ≠ .refused r) ∧ (∀ s : State, ∃ t, step s = .next t)

/-- `60_exceptions.md` R142: nothing leaves a terminal state; reset does. -/
def Obligations.TerminalStatesNeverChange : Prop :=
  (∀ (s : State) (k : Nat), s.runState ≠ .running → Host.Core.run Sys2Proof.core k s = .next s) ∧
  (∀ s : State, s.resetAgain.runState = .running)

/-- `60_exceptions.md` R140 (1), (2), `40_pipeline_stages.md` R72: the two tests at the boundary, the budget first;
only `RUN_STATE` is written (R141). -/
def Obligations.BoundaryStopTests : Prop :=
  ∀ s : State, s.runState = .running →
    (s.inputs.cycleLimit < s.clk → step s = .next { s with runState := .budgetExhausted }) ∧
    (∀ k : Nat, s.clk ≤ s.inputs.cycleLimit → s.inputs.retireLimit = some k → k ≤ s.icount →
      step s = .next { s with runState := .retireLimit })

/-- `60_exceptions.md` R136 to R138, R140 (3) to (5): the two faults, exactly when, which of two is reported, and that
the pass is undone; HALT's commit comes before both. -/
def Obligations.FaultsExactlyWhen : Prop :=
  ∀ s t : State, s.WillPass → step s = .next t →
    (t.runState = .halted ↔ s.haltCommits = true) ∧
    (t.runState = .fault .dataAddressOutOfRange ↔ s.haltCommits = false ∧ s.badAddress = true) ∧
    (t.runState = .fault .divideByZero ↔
      s.haltCommits = false ∧ s.badAddress = false ∧ s.zeroDivisor = true) ∧
    (∀ c : Fault, t.runState = .fault c → t = { s with runState := .fault c })

/-- `60_exceptions.md` R144, `10_state.md` R30: the two counters, in a pass that completes, in the pass a HALT commits
in, and in a step that stops otherwise, which changes `RUN_STATE` alone (R141). -/
def Obligations.CountersCountPassesAndCommits : Prop :=
  ∀ s t : State, s.runState = .running → step s = .next t →
    (t.runState = .running →
      t.clk = s.clk + 1 ∧ t.icount = s.icount + (if s.lW.active.isSome then 1 else 0)) ∧
    (t.runState = .halted → t.clk = s.clk ∧ t.icount = s.icount + 1) ∧
    (t.runState ≠ .running → t.runState ≠ .halted → t = { s with runState := t.runState })

/-! ## Memory -/

/-- `20_memory.md` R42, whole: the word read, no side effect, the fault. -/
def Obligations.MemReadGivesTheWordOrFaults : Prop :=
  (∀ (s : State) (addr : Word),
    (0 ≤ addr.toInt ∧ addr.toInt < (s.inputs.dmemWords : Int) →
      s.memRead addr = .ok (Memory.read s.dmem addr.toInt.toNat)) ∧
    (¬ (0 ≤ addr.toInt ∧ addr.toInt < (s.inputs.dmemWords : Int)) →
      s.memRead addr = .error .dataAddressOutOfRange)) ∧
  (∀ (d a : Reg) (imm : Word) (s t : State), s.phase = .memory →
    exec (.load d a imm) s = .next t ∨ exec (.loadp d a imm) s = .next t → t.dmem = s.dmem)

/-- `20_memory.md` R43, whole: the word written, all 32 bits, no other word changed, the fault. -/
def Obligations.MemWriteWritesOneWordOrFaults : Prop :=
  ∀ (s : State) (addr v : Word), Memory.wf s.dmem = true →
    (0 ≤ addr.toInt ∧ addr.toInt < (s.inputs.dmemWords : Int) →
      ∃ t, s.memWrite addr v = .ok t ∧ Memory.read t.dmem addr.toInt.toNat = v ∧
        (∀ a : Nat, a ≠ addr.toInt.toNat → Memory.read t.dmem a = Memory.read s.dmem a) ∧
        t = { s with dmem := t.dmem }) ∧
    (¬ (0 ≤ addr.toInt ∧ addr.toInt < (s.inputs.dmemWords : Int)) →
      s.memWrite addr v = .error .dataAddressOutOfRange)

/-- `20_memory.md` R45, whole: the record at the index of `PC`, or none, with no side effect (a value is all it is); and
none is not a fault: Fetch does nothing. -/
def Obligations.IFetchGivesTheRecordAtTheIndex : Prop :=
  ∀ s : State,
    let off := s.pc.toInt - s.inputs.codeBase.toInt
    (0 ≤ off ∧ off % 4 = 0 ∧ off / 4 < (s.inputs.imem.length : Int) →
      s.iFetch = s.inputs.imem[(off / 4).toNat]? ∧ s.iFetch.isSome = true) ∧
    (¬ (0 ≤ off ∧ off % 4 = 0 ∧ off / 4 < (s.inputs.imem.length : Int)) → s.iFetch = none) ∧
    (s.iFetch = none → s.phase = .fetch → s.lF.empty = true → ∀ i : Instr, exec i s = .next s)

/-! ## The stage actions of the instructions, whatever else is in flight -/

/-- `40_pipeline_stages.md` R79 to R81: what Fetch does with the instruction it works on, every opcode alike: a new
one at `PC` is read, `PC` advances, and it goes to `L_D`, or is held in `L_F` while Decode is stalled; one held goes
on or stays; with none at `PC` nothing happens. -/
def Obligations.FetchActionOfEveryInstruction : Prop :=
  ∀ (i : Instr) (s : State), s.phase = .fetch →
    (∀ r : Record, s.lF.empty = true → s.iFetch = some r → s.lD.stalled = false →
      exec i s = .next { s with
        pc := wrap32 (s.pc.toInt + 4), lF := Latch.bubble, lD := Latch.fetched r s.pc }) ∧
    (∀ r : Record, s.lF.empty = true → s.iFetch = some r → s.lD.stalled = true →
      exec i s = .next { s with
        pc := wrap32 (s.pc.toInt + 4), lF := { Latch.fetched r s.pc with stalled := true } }) ∧
    (s.lF.empty = true → s.iFetch = none → exec i s = .next s) ∧
    (s.lF.empty = false → s.lD.stalled = false →
      exec i s = .next { s with
        lF := Latch.bubble, lD := { s.lF with empty := false, stalled := false, interrupted := false } }) ∧
    (s.lF.empty = false → s.lD.stalled = true →
      exec i s = .next { s with lF := { s.lF with stalled := true } })

/-- `40_pipeline_stages.md` R75, R76, R82: an instruction other than HALT whose sources are ready (and, for a
conditional branch, with `flags_valid`) is dispatched: its sources are read into the latch, its destinations and no
other register marked not ready, `L_D` emptied. -/
def Obligations.DecodeDispatchesWhenReady : Prop :=
  ∀ (i : Instr) (s : State), s.phase = .decode → i ≠ .halt → ¬ (s.lE.empty = false ∧ s.lE.stalled = true) →
    (∀ r ∈ srcsOf i, s.isReady r = true) → (isConditionalBranch i = true → s.flagsValid = true) →
    ∃ t, exec i s = .next t ∧ t.lD = Latch.bubble ∧
      t.lE = { s.lD with
        rs1Value := t.lE.rs1Value, rs2Value := t.lE.rs2Value, empty := false, stalled := false,
        interrupted := false } ∧
      (∀ r, rs1Of i = some r → t.lE.rs1Value = s.readReg r) ∧
      (rs1Of i = none → t.lE.rs1Value = s.lD.rs1Value) ∧
      (∀ r, rs2Of i = some r → t.lE.rs2Value = s.readReg r) ∧
      (rs2Of i = none → t.lE.rs2Value = s.lD.rs2Value) ∧
      (∀ r, r ∈ destsOf i → t.isReady r = false) ∧ (∀ r, r ∉ destsOf i → t.isReady r = s.isReady r) ∧
      t = { s with lD := t.lD, lE := t.lE, ready := t.ready }

/-- `40_pipeline_stages.md` R83, R85: an instruction that may not be dispatched stays, marked stalled, and nothing else
changes. -/
def Obligations.DecodeStallsWhenNotReady : Prop :=
  ∀ (i : Instr) (s : State), s.phase = .decode →
    (s.lE.empty = false ∧ s.lE.stalled = true) ∨ (∃ r ∈ srcsOf i, s.isReady r = false) ∨
      (isConditionalBranch i = true ∧ s.flagsValid = false) →
    exec i s = .next { s with lD := { s.lD with stalled := true } }

/-- `40_pipeline_stages.md` R82, R84: HALT is dispatched at once, and Decode and Fetch shut down behind it. -/
def Obligations.HaltInDecodeShutsFetchAndDecode : Prop :=
  ∀ s : State, s.phase = .decode → ¬ (s.lE.empty = false ∧ s.lE.stalled = true) →
    exec .halt s = .next { s with
      lE := { s.lD with empty := false, stalled := false, interrupted := false }
      lD := { s.lD with stalled := false, interrupted := true }
      lF := { s.lF with interrupted := true } }

/-- `40_pipeline_stages.md` R86, R87, with R101 to R104, R111, R112, R133, R134: the eight flag producers in Execute.
The result goes on in the latch, the condition codes are its own, `flags_valid` is cleared. -/
def Obligations.FlagProducersInExecute : Prop :=
  ∀ (s : State) (d a b : Reg) (imm : Word), s.phase = .execute →
    let u := s.lE.rs1Value.toInt
    let v := s.lE.rs2Value.toInt
    let done (r : Word) : Out := .next { s with
      lM := { s.lE with result := r, empty := false, stalled := false, interrupted := false }
      lE := Latch.bubble
      z := decide (r.toInt = 0), n := decide (r.toInt < 0), p := decide (r.toInt > 0), flagsValid := false }
    exec (.add d a b) s = done (wrap32 (u + v)) ∧
    exec (.sub d a b) s = done (wrap32 (u - v)) ∧
    exec (.mul d a b) s = done (wrap32 (u * v)) ∧
    (v ≠ 0 → exec (.div d a b) s = done (wrap32 (u.sign * v.sign * ((u.natAbs / v.natAbs : Nat) : Int)))) ∧
    (v = 0 → exec (.div d a b) s = .fault .divideByZero) ∧
    exec (.addl d a imm) s = done (wrap32 (u + imm.toInt)) ∧
    exec (.subl d a imm) s = done (wrap32 (u - imm.toInt)) ∧
    exec (.cmp a b) s = done (wrap32 (u - v)) ∧
    exec (.cml a imm) s = done (wrap32 (u - imm.toInt))

/-- `40_pipeline_stages.md` R86, R87, with R105 to R107, R110: the four flag writers that are no producers, in Execute.
As the producers, but `flags_valid` keeps its value. -/
def Obligations.PlainFlagWritersInExecute : Prop :=
  ∀ (s : State) (d a b : Reg) (imm : Word), s.phase = .execute →
    let done (r : Word) : Out := .next { s with
      lM := { s.lE with result := r, empty := false, stalled := false, interrupted := false }
      lE := Latch.bubble
      z := decide (r.toInt = 0), n := decide (r.toInt < 0), p := decide (r.toInt > 0) }
    ∃ rAnd rOr rXor : Word,
      exec (.and d a b) s = done rAnd ∧ exec (.or d a b) s = done rOr ∧ exec (.xor d a b) s = done rXor ∧
      (∀ k : Nat, rAnd.getLsbD k = (s.lE.rs1Value.getLsbD k && s.lE.rs2Value.getLsbD k)) ∧
      (∀ k : Nat, rOr.getLsbD k = (s.lE.rs1Value.getLsbD k || s.lE.rs2Value.getLsbD k)) ∧
      (∀ k : Nat, rXor.getLsbD k = (s.lE.rs1Value.getLsbD k ^^ s.lE.rs2Value.getLsbD k)) ∧
      exec (.movc d imm) s = done imm

/-- `43_memory_ops.md` R113, `40_pipeline_stages.md` R86: the address computation of the four memory instructions in
Execute, and the increment of the base; nothing but the latches changes. -/
def Obligations.AddressesInExecute : Prop :=
  ∀ (s : State) (d a b : Reg) (imm : Word), s.phase = .execute →
    let base1 := s.lE.rs1Value.toInt
    let base2 := s.lE.rs2Value.toInt
    exec (.load d a imm) s = .next { s with
      lM := { s.lE with
        memoryAddress := wrap32 (base1 + imm.toInt), empty := false, stalled := false, interrupted := false }
      lE := Latch.bubble } ∧
    exec (.loadp d a imm) s = .next { s with
      lM := { s.lE with
        memoryAddress := wrap32 (base1 + imm.toInt), baseNext := wrap32 (base1 + 4), empty := false,
        stalled := false, interrupted := false }
      lE := Latch.bubble } ∧
    exec (.store a b imm) s = .next { s with
      lM := { s.lE with
        memoryAddress := wrap32 (base2 + imm.toInt), empty := false, stalled := false, interrupted := false }
      lE := Latch.bubble } ∧
    exec (.storep a b imm) s = .next { s with
      lM := { s.lE with
        memoryAddress := wrap32 (base2 + imm.toInt), baseNext := wrap32 (base2 + 4), empty := false,
        stalled := false, interrupted := false }
      lE := Latch.bubble }

/-- `40_pipeline_stages.md` R86, R89 to R91, `44_control.md` R119 to R127: the control transfers in Execute. A jump
always, a branch when its flag says so, sets `PC`, empties `L_D` and `L_F` and holds Fetch for the pass; registers,
flags, `ready`, `L_W` and memory are untouched. A branch not taken only goes on. -/
def Obligations.ControlTransfersInExecute : Prop :=
  ∀ (s : State) (d a : Reg) (imm : Word), s.phase = .execute →
    let redirected (t r : Word) : Out := .next { s with
      pc := t, lD := Latch.bubble, lF := Latch.bubble, fSkip := true
      lM := { s.lE with result := r, empty := false, stalled := false, interrupted := false }
      lE := Latch.bubble }
    let onward : Out := .next { s with
      lM := { s.lE with empty := false, stalled := false, interrupted := false }
      lE := Latch.bubble }
    let j := wrap32 (s.lE.rs1Value.toInt + imm.toInt) &&& 0xFFFFFFFC#32
    let b := wrap32 (s.lE.pc.toInt + imm.toInt)
    exec (.jump a imm) s = redirected j j ∧
    exec (.jalr d a imm) s = redirected j (wrap32 (s.lE.pc.toInt + 4)) ∧
    (s.z = true → exec (.bz imm) s = redirected b b ∧ exec (.bnz imm) s = onward) ∧
    (s.z = false → exec (.bz imm) s = onward ∧ exec (.bnz imm) s = redirected b b) ∧
    (s.p = true → exec (.bp imm) s = redirected b b ∧ exec (.bnp imm) s = onward) ∧
    (s.p = false → exec (.bp imm) s = onward ∧ exec (.bnp imm) s = redirected b b) ∧
    (s.n = true → exec (.bn imm) s = redirected b b ∧ exec (.bnn imm) s = onward) ∧
    (s.n = false → exec (.bn imm) s = onward ∧ exec (.bnn imm) s = redirected b b)

/-- `40_pipeline_stages.md` R97, `44_control.md` R128, R129: HALT shuts each stage down behind it, is counted, and
stops the machine when it commits; NOP goes through and is counted. -/
def Obligations.HaltAndNopBehindDecode : Prop :=
  ∀ s : State,
    (s.phase = .execute →
      exec .halt s = .next { s with
        lM := { s.lE with empty := false, stalled := false, interrupted := false }
        lE := { s.lE with interrupted := true } } ∧
      exec .nop s = .next { s with
        lM := { s.lE with empty := false, stalled := false, interrupted := false }, lE := Latch.bubble }) ∧
    (s.phase = .memory →
      exec .halt s = .next { s with
        lW := { s.lM with empty := false, stalled := false, interrupted := false }
        lM := { s.lM with interrupted := true } } ∧
      exec .nop s = .next { s with
        lW := { s.lM with empty := false, stalled := false, interrupted := false }, lM := Latch.bubble }) ∧
    (s.phase = .writeback →
      exec .halt s = .next { s with icount := s.icount + 1, lW := Latch.bubble, runState := .halted } ∧
      exec .nop s = .next { s with icount := s.icount + 1, lW := Latch.bubble })

/-- `40_pipeline_stages.md` R92: Memory passes every instruction on unchanged but the four that access data memory and
HALT. -/
def Obligations.MemoryPassesOthersThrough : Prop :=
  ∀ (i : Instr) (s : State), s.phase = .memory → isMemoryOp i = false → i ≠ .halt →
    exec i s = .next { s with
      lW := { s.lM with empty := false, stalled := false, interrupted := false }, lM := Latch.bubble }

/-- `43_memory_ops.md` R114 to R117, `40_pipeline_stages.md` R92, `60_exceptions.md` R138: the one access of the four
memory instructions, and its fault. The address stored to is the latch's `memory_address`. -/
def Obligations.AccessesInMemory : Prop :=
  ∀ (s : State) (d a b : Reg) (imm : Word), s.phase = .memory → Memory.wf s.dmem = true →
    let addr := s.lM.memoryAddress.toInt
    (0 ≤ addr ∧ addr < (s.inputs.dmemWords : Int) →
      (let onward : Out := .next { s with
        lW := { s.lM with
          result := Memory.read s.dmem addr.toNat, empty := false, stalled := false, interrupted := false }
        lM := Latch.bubble }
      exec (.load d a imm) s = onward ∧ exec (.loadp d a imm) s = onward) ∧
      ∃ t, exec (.store a b imm) s = .next t ∧ exec (.storep a b imm) s = .next t ∧
        t = { s with
          dmem := t.dmem, lM := Latch.bubble
          lW := { s.lM with empty := false, stalled := false, interrupted := false } } ∧
        Memory.read t.dmem addr.toNat = s.lM.rs1Value ∧
        ∀ k : Nat, k ≠ addr.toNat → Memory.read t.dmem k = Memory.read s.dmem k) ∧
    (¬ (0 ≤ addr ∧ addr < (s.inputs.dmemWords : Int)) →
      exec (.load d a imm) s = .fault .dataAddressOutOfRange ∧
      exec (.loadp d a imm) s = .fault .dataAddressOutOfRange ∧
      exec (.store a b imm) s = .fault .dataAddressOutOfRange ∧
      exec (.storep a b imm) s = .fault .dataAddressOutOfRange)

/-- `40_pipeline_stages.md` R93 to R96: Writeback of every instruction but HALT: the registers written, and no others;
each destination released unless Execute or Memory holds another writer of it, the other ready bits kept;
`flags_valid` made true only by a producer with none behind it; one more instruction counted; `L_W` emptied; nothing
else changed. -/
def Obligations.WritebackCommits : Prop :=
  ∀ (i : Instr) (s : State), s.phase = .writeback → i ≠ .halt →
    ∃ t, exec i s = .next t ∧
      (∀ (d a : Reg) (imm : Word), i = .loadp d a imm →
        t.readReg d = s.lW.result ∧ (a ≠ d → t.readReg a = s.lW.baseNext)) ∧
      (∀ (a b : Reg) (imm : Word), i = .storep a b imm → t.readReg b = s.lW.baseNext) ∧
      (∀ d : Reg, destsOf i = [d] → (∀ (a b : Reg) (imm : Word), i ≠ .storep a b imm) →
        t.readReg d = s.lW.result) ∧
      (∀ r : Reg, r ∉ destsOf i → t.readReg r = s.readReg r) ∧
      (∀ r : Reg, r ∈ destsOf i → t.isReady r = !(s.lE.writes r || s.lM.writes r)) ∧
      (∀ r : Reg, r ∉ destsOf i → t.isReady r = s.isReady r) ∧
      t.flagsValid = (s.flagsValid || (isFlagProducer i && !s.lE.isProducer && !s.lM.isProducer)) ∧
      t = { s with
        x := t.x, ready := t.ready, flagsValid := t.flagsValid, icount := s.icount + 1, lW := Latch.bubble }

/-! ## Net effects: one instruction carried through Decode, Execute, Memory and Writeback -/

/-- The net effects of ADD, SUB, MUL, DIV (`41_arithmetic.md` R101 to R104), with their frame. -/
def Obligations.NetEffectOfAddSubMulDiv : Prop :=
  ∀ (d a b : Reg) (s : State),
    let u := (s.readReg a).toInt
    let v := (s.readReg b).toInt
    let ends (i : Instr) (r : Word) : Prop := s.Entered i → ∃ t, Carried i s t ∧ t.readReg d = r ∧ CodesOf t r ∧
      RegsKept s t [d] ∧ MemoryKept s t ∧ t.pc = s.pc ∧ FetchKept s t ∧ SettledAfter s t
    ends (.add d a b) (wrap32 (u + v)) ∧ ends (.sub d a b) (wrap32 (u - v)) ∧
    ends (.mul d a b) (wrap32 (u * v)) ∧ (v ≠ 0 → ends (.div d a b) (wrap32 (u.tdiv v))) ∧
    (v = 0 → s.Entered (.div d a b) → carry (.div d a b) s = .fault .divideByZero)

/-- The net effects of AND, OR, XOR (`41_arithmetic.md` R105 to R107), with their frame. -/
def Obligations.NetEffectOfAndOrXor : Prop :=
  ∀ (d a b : Reg) (s : State),
    let ends (i : Instr) (r : Word) : Prop := s.Entered i → ∃ t, Carried i s t ∧ t.readReg d = r ∧ CodesOf t r ∧
      RegsKept s t [d] ∧ MemoryKept s t ∧ t.pc = s.pc ∧ FetchKept s t ∧ SettledAfter s t
    ends (.and d a b) (s.readReg a &&& s.readReg b) ∧ ends (.or d a b) (s.readReg a ||| s.readReg b) ∧
    ends (.xor d a b) (s.readReg a ^^^ s.readReg b)

/-- The net effects of MOVC, ADDL, SUBL (`42_move_immediate.md` R110 to R112), with their frame. -/
def Obligations.NetEffectOfMovcAddlSubl : Prop :=
  ∀ (d a : Reg) (imm : Word) (s : State),
    let ends (i : Instr) (r : Word) : Prop := s.Entered i → ∃ t, Carried i s t ∧ t.readReg d = r ∧ CodesOf t r ∧
      RegsKept s t [d] ∧ MemoryKept s t ∧ t.pc = s.pc ∧ FetchKept s t ∧ SettledAfter s t
    ends (.movc d imm) imm ∧ ends (.addl d a imm) (wrap32 ((s.readReg a).toInt + imm.toInt)) ∧
    ends (.subl d a imm) (wrap32 ((s.readReg a).toInt - imm.toInt))

/-- The net effects of CMP and CML (`45_compare.md` R133, R134), with their frame: the condition codes alone. -/
def Obligations.NetEffectOfCmpCml : Prop :=
  ∀ (a b : Reg) (imm : Word) (s : State),
    let ends (i : Instr) (r : Word) : Prop := s.Entered i → ∃ t, Carried i s t ∧ CodesOf t r ∧
      RegsKept s t [] ∧ MemoryKept s t ∧ t.pc = s.pc ∧ FetchKept s t ∧ SettledAfter s t
    ends (.cmp a b) (wrap32 ((s.readReg a).toInt - (s.readReg b).toInt)) ∧
    ends (.cml a imm) (wrap32 ((s.readReg a).toInt - imm.toInt))

/-- The net effects of LOAD and LOADP (`43_memory_ops.md` R114, R115), with their frame: the base keeps its increment
unless it is also the destination, where the loaded word wins. -/
def Obligations.NetEffectOfLoadLoadp : Prop :=
  ∀ (d a : Reg) (imm : Word) (s : State),
    let addr := (wrap32 ((s.readReg a).toInt + imm.toInt)).toInt
    (0 ≤ addr ∧ addr < (s.inputs.dmemWords : Int) →
      (s.Entered (.load d a imm) → ∃ t, Carried (.load d a imm) s t ∧
        t.readReg d = Memory.read s.dmem addr.toNat ∧ RegsKept s t [d] ∧
        CodesKept s t ∧ MemoryKept s t ∧ t.pc = s.pc ∧ FetchKept s t ∧ SettledAfter s t) ∧
      (s.Entered (.loadp d a imm) → ∃ t, Carried (.loadp d a imm) s t ∧
        t.readReg d = Memory.read s.dmem addr.toNat ∧
        (a ≠ d → t.readReg a = wrap32 ((s.readReg a).toInt + 4)) ∧ RegsKept s t [d, a] ∧
        CodesKept s t ∧ MemoryKept s t ∧ t.pc = s.pc ∧ FetchKept s t ∧ SettledAfter s t)) ∧
    (¬ (0 ≤ addr ∧ addr < (s.inputs.dmemWords : Int)) →
      (s.Entered (.load d a imm) → carry (.load d a imm) s = .fault .dataAddressOutOfRange) ∧
      (s.Entered (.loadp d a imm) → carry (.loadp d a imm) s = .fault .dataAddressOutOfRange))

/-- The net effects of STORE and STOREP (`43_memory_ops.md` R116, R117), with their frame: the value stored is the one
the register had, at the effective address; no other word of memory changes. -/
def Obligations.NetEffectOfStoreStorep : Prop :=
  ∀ (a b : Reg) (imm : Word) (s : State), Memory.wf s.dmem = true →
    let addr := (effectiveAddress (s.readReg b) imm).toInt
    let stored (t : State) : Prop := Memory.read t.dmem addr.toNat = s.readReg a ∧
      ∀ k : Nat, k ≠ addr.toNat → Memory.read t.dmem k = Memory.read s.dmem k
    addr = (wrap32 ((s.readReg b).toInt + imm.toInt)).toInt ∧
    (0 ≤ addr ∧ addr < (s.inputs.dmemWords : Int) →
      (s.Entered (.store a b imm) → ∃ t, Carried (.store a b imm) s t ∧ stored t ∧
        RegsKept s t [] ∧ CodesKept s t ∧ t.pc = s.pc ∧ FetchKept s t ∧ SettledAfter s t) ∧
      (s.Entered (.storep a b imm) → ∃ t, Carried (.storep a b imm) s t ∧ stored t ∧
        t.readReg b = wrap32 ((s.readReg b).toInt + 4) ∧ RegsKept s t [b] ∧ CodesKept s t ∧
        t.pc = s.pc ∧ FetchKept s t ∧ SettledAfter s t)) ∧
    (¬ (0 ≤ addr ∧ addr < (s.inputs.dmemWords : Int)) →
      (s.Entered (.store a b imm) → carry (.store a b imm) s = .fault .dataAddressOutOfRange) ∧
      (s.Entered (.storep a b imm) → carry (.storep a b imm) s = .fault .dataAddressOutOfRange))

/-- The net effects of JUMP and JALR (`44_control.md` R120, R121), with their frame: `pc` is the instruction's own
address, the target a multiple of 4; the redirect empties Fetch's latch and holds Fetch (`40_pipeline_stages.md` R89). -/
def Obligations.NetEffectOfJumpJalr : Prop :=
  ∀ (d a : Reg) (imm : Word) (s : State),
    let target := wrap32 ((s.readReg a).toInt + imm.toInt) &&& 0xFFFFFFFC#32
    (4 : Int) ∣ target.toInt ∧
    (s.Entered (.jump a imm) → ∃ t, Carried (.jump a imm) s t ∧ t.pc = target ∧
      RegsKept s t [] ∧ CodesKept s t ∧ MemoryKept s t ∧ FetchFlushed t ∧ SettledAfter s t) ∧
    (s.Entered (.jalr d a imm) → ∃ t, Carried (.jalr d a imm) s t ∧ t.pc = target ∧
      t.readReg d = wrap32 (s.lD.pc.toInt + 4) ∧ RegsKept s t [d] ∧ CodesKept s t ∧ MemoryKept s t ∧
      FetchFlushed t ∧ SettledAfter s t)

/-- The net effects of the six conditional branches (`44_control.md` R122 to R127, R159), with their frame: a taken
branch empties Fetch's latch and holds Fetch (`40_pipeline_stages.md` R89), one not taken leaves them. -/
def Obligations.NetEffectOfBranches : Prop :=
  ∀ (imm : Word) (s : State),
    let ends (i : Instr) (test : Bool) : Prop := s.Entered i → ∃ t, Carried i s t ∧
      (test = true → t.pc = wrap32 (s.lD.pc.toInt + imm.toInt) ∧ FetchFlushed t) ∧
      (test = false → t.pc = s.pc ∧ FetchKept s t) ∧
      RegsKept s t [] ∧ CodesKept s t ∧ MemoryKept s t ∧ SettledAfter s t
    ends (.bz imm) s.z ∧ ends (.bnz imm) (!s.z) ∧ ends (.bp imm) s.p ∧ ends (.bnp imm) (!s.p) ∧
    ends (.bn imm) s.n ∧ ends (.bnn imm) (!s.n)

/-- The net effects of HALT and NOP (`44_control.md` R128, R129), with their frame. -/
def Obligations.NetEffectOfHaltNop : Prop :=
  ∀ s : State,
    (s.Entered .nop → ∃ t, Carried .nop s t ∧
      RegsKept s t [] ∧ CodesKept s t ∧ MemoryKept s t ∧ t.pc = s.pc ∧ FetchKept s t ∧ SettledAfter s t) ∧
    (s.Entered .halt → ∃ t, Carried .halt s t ∧ t.runState = .halted ∧ t.icount = s.icount + 1 ∧
      RegsKept s t [] ∧ CodesKept s t ∧ MemoryKept s t ∧ t.pc = s.pc ∧ t.clk = s.clk ∧ t.inputs = s.inputs ∧
      t.ready = s.ready ∧ t.flagsValid = s.flagsValid ∧
      t.lF = { s.lF with interrupted := true } ∧ t.fSkip = s.fSkip ∧ t.phase = .writeback ∧
      t.lD.IsShut ∧ t.lE.IsShut ∧ t.lM.IsShut ∧ t.lW = Latch.bubble)

/-- `40_pipeline_stages.md` R98, R99: for every instruction the four stage actions, one after another, come to the
effect of one step of the one-at-a-time machine, or raise its fault. On HALT that machine stops before it moves `pc`,
while the controller's `PC` stays where Fetch left it, behind the HALT (R84). -/
def Obligations.StagesComposeToTheNetEffect : Prop :=
  ∀ (i : Instr) (s : State), s.Entered i →
    match seqEffect i { s.seqView with pc := s.lD.pc } with
    | .ok u => ∃ t, Carried i s t ∧ t.seqView = { u with pc := t.pc } ∧ (i ≠ .halt → t.pc = u.pc) ∧
        (i = .halt → t.pc = s.pc ∧ u.pc = s.lD.pc)
    | .error c => carry i s = .fault c

/-! ## Facts about the arithmetic -/

/-- `41_arithmetic.md` R108, which the spec derives: the laws of the operators as values, and of the instructions
carried through; the flags; the bitwise operators bit by bit; the division identity. -/
def Obligations.ArithmeticFacts : Prop :=
  (∀ a b : Word, addWords a b = addWords b a ∧ mulWords a b = mulWords b a ∧ a &&& b = b &&& a ∧
    a ||| b = b ||| a ∧ a ^^^ b = b ^^^ a ∧
    subWords a b = addWords a (wrap32 (-b.toInt)) ∧ subWords (addWords a b) b = a ∧
    a ^^^ a = 0#32 ∧ a &&& a = a ∧ a ||| a = a) ∧
  (∀ (op : Reg → Reg → Reg → Instr) (d a b : Reg) (s s' t t' : State),
    op = .add ∨ op = .mul ∨ op = .and ∨ op = .or ∨ op = .xor →
    s.Entered (op d a b) → s'.Entered (op d b a) → s'.x = s.x → Carried (op d a b) s t → Carried (op d b a) s' t' →
    t'.x = t.x ∧ t'.z = t.z ∧ t'.n = t.n ∧ t'.p = t.p) ∧
  (∀ (d a b : Reg) (s t : State),
    (s.Entered (.and d a b) → Carried (.and d a b) s t → ∀ k : Nat,
      (t.readReg d).getLsbD k = ((s.readReg a).getLsbD k && (s.readReg b).getLsbD k)) ∧
    (s.Entered (.or d a b) → Carried (.or d a b) s t → ∀ k : Nat,
      (t.readReg d).getLsbD k = ((s.readReg a).getLsbD k || (s.readReg b).getLsbD k)) ∧
    (s.Entered (.xor d a b) → Carried (.xor d a b) s t → ∀ k : Nat,
      (t.readReg d).getLsbD k = ((s.readReg a).getLsbD k ^^ (s.readReg b).getLsbD k)) ∧
    (s.Entered (.and d a a) → Carried (.and d a a) s t → t.readReg d = s.readReg a) ∧
    (s.Entered (.or d a a) → Carried (.or d a a) s t → t.readReg d = s.readReg a) ∧
    (s.Entered (.xor d a a) → Carried (.xor d a a) s t → t.readReg d = 0#32)) ∧
  (∀ (d a b : Reg) (s t : State),
    (Carried (.add d a b) s t ∨ Carried (.sub d a b) s t ∨ Carried (.mul d a b) s t ∨ Carried (.div d a b) s t ∨
      Carried (.and d a b) s t ∨ Carried (.or d a b) s t ∨ Carried (.xor d a b) s t) →
    ((t.z = true ∧ t.n = false ∧ t.p = false) ∨ (t.z = false ∧ t.n = true ∧ t.p = false) ∨
      (t.z = false ∧ t.n = false ∧ t.p = true)) ∧
    (t.z = true ↔ t.readReg d = 0#32) ∧ t.n = (t.readReg d).msb) ∧
  (∀ a b : Word, b ≠ 0#32 → ¬ (a.toInt = -2147483648 ∧ b.toInt = -1) →
    ∃ rem : Int, a.toInt = (divWords a b).toInt * b.toInt + rem ∧ rem.natAbs < b.toInt.natAbs ∧
      (rem = 0 ∨ rem.sign = a.toInt.sign))

/-! ## What a step can and cannot do, whatever the state -/

/-- `10_state.md` R28, `40_pipeline_stages.md` R78, R87: in a step only a flag writer in Execute changes the condition
codes, all three together and from its result, so that exactly one is then true. -/
def Obligations.OnlyFlagWritersInExecuteChangeTheCodes : Prop :=
  ∀ s t : State, step s = .next t →
    CodesKept s t ∨
    ∃ i, s.executing = some i ∧ isFlagWriter i = true ∧ CodesOf t t.lM.result ∧
      t.lM.instr = i ∧ t.lM.empty = false ∧ (t.z ^^ t.n ^^ t.p) = true ∧ (t.z && t.n && t.p) = false

/-- `10_state.md` R23: in a step a register changes only when the instruction in Writeback has it as a destination. -/
def Obligations.RegistersChangeOnlyAtCommit : Prop :=
  ∀ (s t : State) (r : Reg), step s = .next t → t.readReg r ≠ s.readReg r →
    ∃ i, s.lW.active = some i ∧ r ∈ destsOf i

/-- `10_state.md` R39, `20_memory.md` R43, R49: in a step a word of data memory changes only when a store in Memory has
its address, and then to the value stored. -/
def Obligations.MemoryChangesOnlyByStores : Prop :=
  ∀ (s t : State) (a : Nat), Memory.wf s.dmem = true → step s = .next t →
    Memory.read t.dmem a ≠ Memory.read s.dmem a →
    ∃ i, s.lM.active = some i ∧ isStore i = true ∧ s.lM.memoryAddress.toInt = (a : Int) ∧
      (a : Int) < (s.inputs.dmemWords : Int) ∧ Memory.read t.dmem a = s.lM.rs1Value

/-- `10_state.md` R15, `20_memory.md` R54: no step writes an input; instruction memory is read only. -/
def Obligations.InputsAreNeverWritten : Prop :=
  (∀ s t : State, step s = .next t → t.inputs = s.inputs) ∧
  (∀ (i : Instr) (s t : State), exec i s = .next t → t.inputs = s.inputs)

/-- `10_state.md` R20: who writes `PC` in a step: Execute by a redirect, Fetch by +4, no one else; and after a redirect
Fetch does not move it in the same pass. -/
def Obligations.WhoWritesPc : Prop :=
  ∀ s t : State, s.WillPass → step s = .next t → t.runState = .running →
    (∀ target, s.redirectTarget = some target → t.pc = target) ∧
    (s.redirectTarget = none → t.pc = s.pc ∨ t.pc = wrap32 (s.pc.toInt + 4))

/-- `40_pipeline_stages.md` R89, R73, `44_control.md` R130: a pass with a redirect leaves `L_F`, `L_D` and `L_E` empty,
so the instructions behind it have had no effect, marks no register not ready, and lets Fetch go on in the next pass. -/
def Obligations.RedirectSquashesWhatIsBehind : Prop :=
  ∀ (s t : State) (target : Word), s.WillPass → s.redirectTarget = some target → step s = .next t →
    t.runState = .running →
    t.lF = Latch.bubble ∧ t.lD = Latch.bubble ∧ t.lE = Latch.bubble ∧ t.fSkip = false ∧
    (∀ r : Reg, s.isReady r = true → t.isReady r = true ∨ ∃ i, s.lW.active = some i ∧ r ∈ destsOf i)

/-! ## The invariant -/

/-- `70_reset_and_hazards.md` R153, the base case: a constructed machine, and any launch state with a canonical memory
and at most one condition code set, has the invariant. -/
def Obligations.InvariantAtReset : Prop :=
  State.reset.Inv ∧ (∀ (p : RawInputs) (s : State), construct p = some s → s.Inv) ∧
  (∀ s : State, s.Launched → Memory.wf s.dmem = true → Memory.within s.inputs.dmemWords s.dmem = true →
    (s.z && s.n) = false → (s.z && s.p) = false → (s.n && s.p) = false → s.Inv)

/-- `70_reset_and_hazards.md` R153, items 1 to 5, 8, 9, "at most one" of 7 and `ICOUNT ≤ CLK − 1` of 10,
`10_state.md` R25, R29, R37, and the canonical form of data memory: every step keeps the invariant, from every state
that has it. -/
def Obligations.EveryStepKeepsTheInvariant : Prop :=
  ∀ s t : State, s.Inv → step s = .next t → t.Inv

/-- `70_reset_and_hazards.md` R153, items 1 to 5 and 7 to 9 and the first sentence of item 10, in the spec's own words,
of every state a constructed machine reaches. Item 6 is `OccupantsAreInProgramOrder`, the second sentence of item 10
`RegisterFileIsThatOfTheCommittedInstructions`. -/
def Obligations.ReachableStatesKeepTheSpecsInvariants : Prop :=
  ∀ (p : RawInputs) (s t : State) (k : Nat), construct p = some s → Host.Core.run Sys2Proof.core k s = .next t →
    (∀ r : Reg, t.isReady r = false ↔ (t.lE.writes r = true ∨ t.lM.writes r = true ∨ t.lW.writes r = true)) ∧
    t.flagsValid = !(t.lM.isProducer || t.lW.isProducer) ∧
    t.lE.stalled = false ∧ t.lM.stalled = false ∧ t.lW.stalled = false ∧ t.lW.interrupted = false ∧
    t.fSkip = false ∧
    (t.lF.empty = false → t.lF.interrupted = false → t.lF.stalled = true ∧ t.lD.stalled = true) ∧
    (t.lF.interrupted = true → t.lF.empty = true) ∧
    (t.lD.stalled = true → t.lD.empty = false ∧ t.lE.empty = true) ∧
    (t.lD.interrupted = true → t.lD.empty = false ∧ t.lD.opcode = .HALT ∧ t.lF.interrupted = true) ∧
    (t.lE.interrupted = true → t.lD.interrupted = true) ∧ (t.lM.interrupted = true → t.lE.interrupted = true) ∧
    (t.lE.empty = false → t.lE.interrupted = false → t.lF.empty = true) ∧
    (t.z && t.n) = false ∧ (t.z && t.p) = false ∧ (t.n && t.p) = false ∧
    (t.z = false → t.n = false → t.p = false → ∀ (j : Nat) (u v : State) (i : Instr), j < k →
      Host.Core.run Sys2Proof.core j s = .next u → step u = .next v → v.runState = .running →
      u.executing = some i → isFlagWriter i = false) ∧
    t.icount + 1 ≤ t.clk

/-- `10_state.md` R24, `40_pipeline_stages.md` R82, R83, `70_reset_and_hazards.md` R152: no stale operand. An
instruction that a pass dispatches reads the values the register file holds when the pass ends, and no instruction
then ahead of it still has to write one of its sources; a conditional branch has no flag producer ahead of it. -/
def Obligations.NoInstructionReadsAStaleOperand : Prop :=
  ∀ (s t : State) (i : Instr), s.Inv → s.WillPass → step s = .next t → t.runState = .running →
    s.lD.active = some i → t.lE.IsOccupied →
    (∀ r ∈ srcsOf i, t.lM.writes r = false ∧ t.lW.writes r = false) ∧
    (∀ r, rs1Of i = some r → t.lE.rs1Value = t.readReg r) ∧
    (∀ r, rs2Of i = some r → t.lE.rs2Value = t.readReg r) ∧
    (isConditionalBranch i = true → t.lM.isProducer = false ∧ t.lW.isProducer = false) ∧
    t.lE.instr = i

/-- `70_reset_and_hazards.md` R154: nothing waits behind Decode: each pass moves the instruction in Execute to Memory
and the one in Memory to Writeback, and commits the one in Writeback. -/
def Obligations.InstructionsBehindDecodeAdvanceEveryPass : Prop :=
  ∀ (s t : State) (i : Instr), s.Inv → s.WillPass → step s = .next t → t.runState = .running →
    (s.lE.active = some i → t.lM.instr = i ∧ t.lM.pc = s.lE.pc ∧ t.lM.empty = false) ∧
    (s.lM.active = some i → t.lW.instr = i ∧ t.lW.pc = s.lM.pc ∧ t.lW.empty = false) ∧
    (s.lW.active = some i → t.icount = s.icount + 1) ∧
    (s.lW.active = none → t.icount = s.icount)

/-- `60_exceptions.md` R141, row `Halted`: the state a HALT's commit leaves. -/
def Obligations.FrozenStateAfterHalt : Prop :=
  ∀ s t : State, s.Inv → s.WillPass → step s = .next t → t.runState = .halted →
    t.lD.IsShut ∧ t.lE.IsShut ∧ t.lM.IsShut ∧ t.lW = Latch.bubble ∧ t.lF.IsShutFetch ∧
    (∀ r : Reg, t.isReady r = true) ∧ t.flagsValid = true ∧ t.clk = s.clk ∧ t.icount = s.icount + 1 ∧
    t.pc = s.pc ∧ t.dmem = s.dmem ∧ t.x = s.x

/-- `60_exceptions.md` R144, `70_reset_and_hazards.md` R150: from a launch state nothing commits before pass 5. -/
def Obligations.NothingCommitsBeforePassFive : Prop :=
  ∀ (s t : State) (k : Nat), s.Launched → k ≤ 4 → Host.Core.run Sys2Proof.core k s = .next t →
    t.icount = 0 ∧ t.x = s.x

/-- `70_reset_and_hazards.md` R155, distance 1: an instruction in Decode that reads a register the instruction in
Execute writes, or a conditional branch behind a flag producer in Execute, waits two passes and is dispatched in the
third, unless Execute redirects and squashes it. -/
def Obligations.AReaderBehindItsProducerWaitsTwoPasses : Prop :=
  ∀ (s t1 t2 t3 : State) (i : Instr), s.Inv → step s = .next t1 → step t1 = .next t2 → step t2 = .next t3 →
    t3.runState = .running → s.lD.active = some i → s.redirectTarget = none →
    ((∃ r ∈ srcsOf i, s.lE.writes r = true) ∨ (isConditionalBranch i = true ∧ s.lE.isProducer = true)) →
    t1.lD.IsStalled ∧ t1.lD.instr = i ∧ t2.lD.IsStalled ∧ t2.lD.instr = i ∧ t3.lE.IsOccupied ∧ t3.lE.instr = i

/-- `70_reset_and_hazards.md` R158, the bound without stalls and redirects: a run that halts after `K` instructions has
`CLK` at least `K + 4`. -/
def Obligations.HaltedClockIsAtLeastTheCountPlusFour : Prop :=
  ∀ (s t : State) (k : Nat), s.Launched → Host.Core.run Sys2Proof.core k s = .next t → t.runState = .halted →
    t.icount + 4 ≤ t.clk

/-! ## The pipeline and the one-at-a-time machine -/

/-- `70_reset_and_hazards.md` R153 item 6: at every boundary reached from a launch state the occupants of `L_W`, `L_M`
and `L_E`, oldest first, shut-down copies of HALT left out, are the instructions `Seq` carries out after the first
`ICOUNT`, one after another (up to one that faults); the occupant of `L_D` is the next of them, or, behind an
instruction in Execute that redirects, the one at the address after it; the occupant of `L_F` is the one at the
address after that of `L_D`. Each is the instruction at its own address. -/
def Obligations.OccupantsAreInProgramOrder : Prop :=
  ∀ (s t : State) (k : Nat), s.Launched → Host.Core.run Sys2Proof.core k s = .next t →
    let next (older : List Latch) (l : Latch) : Prop := ∀ u : SeqState,
      seqRun (t.icount + (older.filterMap Latch.active).length) s.seqView = .next u → l.pc = u.pc
    (∀ l ∈ [t.lW, t.lM, t.lE, t.lD, t.lF], ∀ i : Instr, l.active = some i →
      ∃ r, ({ t with pc := l.pc } : State).iFetch = some r ∧ r.toInstr = i) ∧
    (∀ i : Instr, t.lW.active = some i → next [] t.lW) ∧
    (∀ i : Instr, t.lM.active = some i → next [t.lW] t.lM) ∧
    (∀ i : Instr, t.lE.active = some i → next [t.lW, t.lM] t.lE) ∧
    (∀ i : Instr, t.lD.active = some i →
      (t.redirectTarget = none → next [t.lW, t.lM, t.lE] t.lD) ∧
      (t.redirectTarget ≠ none → t.lD.pc = nextPc t.lE.pc)) ∧
    (∀ i : Instr, t.lF.active = some i → t.lD.active.isSome = true ∧ t.lF.pc = nextPc t.lD.pc)

/-- `70_reset_and_hazards.md` R153 item 10: at every boundary reached from a launch state the register file is that of
`Seq` after as many instructions as have committed, and data memory differs from its memory at most in the word a
store now in `L_W` has written. -/
def Obligations.RegisterFileIsThatOfTheCommittedInstructions : Prop :=
  ∀ (s t : State) (k : Nat), s.Launched → Memory.wf s.dmem = true → Host.Core.run Sys2Proof.core k s = .next t →
    ∃ u, (seqRun t.icount s.seqView = .next u ∨ seqRun t.icount s.seqView = .halted u) ∧
      u.count = t.icount ∧ u.x = t.x ∧
      ∀ a : Nat, Memory.read t.dmem a ≠ Memory.read u.dmem a →
        t.lW.empty = false ∧ isStore t.lW.instr = true ∧ t.lW.memoryAddress.toInt = (a : Int)

/-- `40_pipeline_stages.md` R99, Halted: when the controller has halted, `Seq` has halted after as many instructions as
it counted, with the same registers, condition codes and data memory. -/
def Obligations.HaltedPipelineAgreesWithSequentialMachine : Prop :=
  ∀ (s t : State) (k : Nat), s.Launched → Host.Core.run Sys2Proof.core k s = .next t → t.runState = .halted →
    ∃ u, seqRun t.icount s.seqView = .halted u ∧ u.x = t.x ∧ u.z = t.z ∧ u.n = t.n ∧ u.p = t.p ∧
      u.dmem = t.dmem ∧ u.count = t.icount

/-- `40_pipeline_stages.md` R99, Fault: when the controller has faulted, `Seq` faults with the same cause. -/
def Obligations.FaultedPipelineAgreesWithSequentialMachine : Prop :=
  ∀ (s t : State) (k : Nat) (c : Fault), s.Launched → Host.Core.run Sys2Proof.core k s = .next t →
    t.runState = .fault c → ∃ m, seqRun m s.seqView = .fault c

/-- `40_pipeline_stages.md` R99, the other direction: where `Seq` halts, the controller halts, given a large enough
budget and no retire limit; where it faults, the controller faults with the same cause. -/
def Obligations.SequentialEndsAreReachedByThePipeline : Prop :=
  ∀ (s : State) (m : Nat), s.Launched → s.inputs.retireLimit = none →
    (∀ u, seqRun m s.seqView = .halted u → ∃ limit, ∀ l, limit ≤ l → ∃ k t,
      Host.Core.run Sys2Proof.core k (s.withCycleLimit l) = .next t ∧ t.runState = .halted) ∧
    (∀ c, seqRun m s.seqView = .fault c → ∃ limit, ∀ l, limit ≤ l → ∃ k t,
      Host.Core.run Sys2Proof.core k (s.withCycleLimit l) = .next t ∧ t.runState = .fault c)
end

