-- ==== Sys2Proof/Laws/State.lean ====
section
/-! SUPPORT. One lemma per field per named update of the state, so that no proof unfolds a record update. -/

namespace Sys2Proof.Machine

/-! ### `State.during` -/

@[simp] theorem State.during_inputs (s : State) (st : Stage) : (s.during st).inputs = s.inputs := rfl
@[simp] theorem State.during_pc (s : State) (st : Stage) : (s.during st).pc = s.pc := rfl
@[simp] theorem State.during_x (s : State) (st : Stage) : (s.during st).x = s.x := rfl
@[simp] theorem State.during_ready (s : State) (st : Stage) : (s.during st).ready = s.ready := rfl
@[simp] theorem State.during_z (s : State) (st : Stage) : (s.during st).z = s.z := rfl
@[simp] theorem State.during_n (s : State) (st : Stage) : (s.during st).n = s.n := rfl
@[simp] theorem State.during_p (s : State) (st : Stage) : (s.during st).p = s.p := rfl
@[simp] theorem State.during_flagsValid (s : State) (st : Stage) : (s.during st).flagsValid = s.flagsValid := rfl
@[simp] theorem State.during_clk (s : State) (st : Stage) : (s.during st).clk = s.clk := rfl
@[simp] theorem State.during_icount (s : State) (st : Stage) : (s.during st).icount = s.icount := rfl
@[simp] theorem State.during_runState (s : State) (st : Stage) : (s.during st).runState = s.runState := rfl
@[simp] theorem State.during_fSkip (s : State) (st : Stage) : (s.during st).fSkip = s.fSkip := rfl
@[simp] theorem State.during_lF (s : State) (st : Stage) : (s.during st).lF = s.lF := rfl
@[simp] theorem State.during_lD (s : State) (st : Stage) : (s.during st).lD = s.lD := rfl
@[simp] theorem State.during_lE (s : State) (st : Stage) : (s.during st).lE = s.lE := rfl
@[simp] theorem State.during_lM (s : State) (st : Stage) : (s.during st).lM = s.lM := rfl
@[simp] theorem State.during_lW (s : State) (st : Stage) : (s.during st).lW = s.lW := rfl
@[simp] theorem State.during_dmem (s : State) (st : Stage) : (s.during st).dmem = s.dmem := rfl
@[simp] theorem State.during_phase (s : State) (st : Stage) : (s.during st).phase = st := rfl

/-! ### `State.writeReg` -/

@[simp] theorem State.writeReg_inputs (s : State) (r : Reg) (v : Word) : (s.writeReg r v).inputs = s.inputs := rfl
@[simp] theorem State.writeReg_pc (s : State) (r : Reg) (v : Word) : (s.writeReg r v).pc = s.pc := rfl
@[simp] theorem State.writeReg_x (s : State) (r : Reg) (v : Word) : (s.writeReg r v).x = s.x.set r.val v := rfl
@[simp] theorem State.writeReg_ready (s : State) (r : Reg) (v : Word) : (s.writeReg r v).ready = s.ready := rfl
@[simp] theorem State.writeReg_z (s : State) (r : Reg) (v : Word) : (s.writeReg r v).z = s.z := rfl
@[simp] theorem State.writeReg_n (s : State) (r : Reg) (v : Word) : (s.writeReg r v).n = s.n := rfl
@[simp] theorem State.writeReg_p (s : State) (r : Reg) (v : Word) : (s.writeReg r v).p = s.p := rfl
@[simp] theorem State.writeReg_flagsValid (s : State) (r : Reg) (v : Word) :
    (s.writeReg r v).flagsValid = s.flagsValid := rfl
@[simp] theorem State.writeReg_clk (s : State) (r : Reg) (v : Word) : (s.writeReg r v).clk = s.clk := rfl
@[simp] theorem State.writeReg_icount (s : State) (r : Reg) (v : Word) : (s.writeReg r v).icount = s.icount := rfl
@[simp] theorem State.writeReg_runState (s : State) (r : Reg) (v : Word) :
    (s.writeReg r v).runState = s.runState := rfl
@[simp] theorem State.writeReg_fSkip (s : State) (r : Reg) (v : Word) : (s.writeReg r v).fSkip = s.fSkip := rfl
@[simp] theorem State.writeReg_lF (s : State) (r : Reg) (v : Word) : (s.writeReg r v).lF = s.lF := rfl
@[simp] theorem State.writeReg_lD (s : State) (r : Reg) (v : Word) : (s.writeReg r v).lD = s.lD := rfl
@[simp] theorem State.writeReg_lE (s : State) (r : Reg) (v : Word) : (s.writeReg r v).lE = s.lE := rfl
@[simp] theorem State.writeReg_lM (s : State) (r : Reg) (v : Word) : (s.writeReg r v).lM = s.lM := rfl
@[simp] theorem State.writeReg_lW (s : State) (r : Reg) (v : Word) : (s.writeReg r v).lW = s.lW := rfl
@[simp] theorem State.writeReg_dmem (s : State) (r : Reg) (v : Word) : (s.writeReg r v).dmem = s.dmem := rfl
@[simp] theorem State.writeReg_phase (s : State) (r : Reg) (v : Word) : (s.writeReg r v).phase = s.phase := rfl

/-! ### `State.markNotReady` -/

@[simp] theorem State.markNotReady_inputs (s : State) (rs : List Reg) : (s.markNotReady rs).inputs = s.inputs := rfl
@[simp] theorem State.markNotReady_pc (s : State) (rs : List Reg) : (s.markNotReady rs).pc = s.pc := rfl
@[simp] theorem State.markNotReady_x (s : State) (rs : List Reg) : (s.markNotReady rs).x = s.x := rfl
@[simp] theorem State.markNotReady_ready (s : State) (rs : List Reg) :
    (s.markNotReady rs).ready = setReadyBits s.ready (fun _ => false) rs := rfl
@[simp] theorem State.markNotReady_z (s : State) (rs : List Reg) : (s.markNotReady rs).z = s.z := rfl
@[simp] theorem State.markNotReady_n (s : State) (rs : List Reg) : (s.markNotReady rs).n = s.n := rfl
@[simp] theorem State.markNotReady_p (s : State) (rs : List Reg) : (s.markNotReady rs).p = s.p := rfl
@[simp] theorem State.markNotReady_flagsValid (s : State) (rs : List Reg) :
    (s.markNotReady rs).flagsValid = s.flagsValid := rfl
@[simp] theorem State.markNotReady_clk (s : State) (rs : List Reg) : (s.markNotReady rs).clk = s.clk := rfl
@[simp] theorem State.markNotReady_icount (s : State) (rs : List Reg) : (s.markNotReady rs).icount = s.icount := rfl
@[simp] theorem State.markNotReady_runState (s : State) (rs : List Reg) :
    (s.markNotReady rs).runState = s.runState := rfl
@[simp] theorem State.markNotReady_fSkip (s : State) (rs : List Reg) : (s.markNotReady rs).fSkip = s.fSkip := rfl
@[simp] theorem State.markNotReady_lF (s : State) (rs : List Reg) : (s.markNotReady rs).lF = s.lF := rfl
@[simp] theorem State.markNotReady_lD (s : State) (rs : List Reg) : (s.markNotReady rs).lD = s.lD := rfl
@[simp] theorem State.markNotReady_lE (s : State) (rs : List Reg) : (s.markNotReady rs).lE = s.lE := rfl
@[simp] theorem State.markNotReady_lM (s : State) (rs : List Reg) : (s.markNotReady rs).lM = s.lM := rfl
@[simp] theorem State.markNotReady_lW (s : State) (rs : List Reg) : (s.markNotReady rs).lW = s.lW := rfl
@[simp] theorem State.markNotReady_dmem (s : State) (rs : List Reg) : (s.markNotReady rs).dmem = s.dmem := rfl
@[simp] theorem State.markNotReady_phase (s : State) (rs : List Reg) : (s.markNotReady rs).phase = s.phase := rfl

/-! ### `State.release` -/

@[simp] theorem State.release_inputs (s : State) (rs : List Reg) : (s.release rs).inputs = s.inputs := rfl
@[simp] theorem State.release_pc (s : State) (rs : List Reg) : (s.release rs).pc = s.pc := rfl
@[simp] theorem State.release_x (s : State) (rs : List Reg) : (s.release rs).x = s.x := rfl
@[simp] theorem State.release_ready (s : State) (rs : List Reg) :
    (s.release rs).ready = setReadyBits s.ready (fun r => !(s.lE.writes r || s.lM.writes r)) rs := rfl
@[simp] theorem State.release_z (s : State) (rs : List Reg) : (s.release rs).z = s.z := rfl
@[simp] theorem State.release_n (s : State) (rs : List Reg) : (s.release rs).n = s.n := rfl
@[simp] theorem State.release_p (s : State) (rs : List Reg) : (s.release rs).p = s.p := rfl
@[simp] theorem State.release_flagsValid (s : State) (rs : List Reg) : (s.release rs).flagsValid = s.flagsValid := rfl
@[simp] theorem State.release_clk (s : State) (rs : List Reg) : (s.release rs).clk = s.clk := rfl
@[simp] theorem State.release_icount (s : State) (rs : List Reg) : (s.release rs).icount = s.icount := rfl
@[simp] theorem State.release_runState (s : State) (rs : List Reg) : (s.release rs).runState = s.runState := rfl
@[simp] theorem State.release_fSkip (s : State) (rs : List Reg) : (s.release rs).fSkip = s.fSkip := rfl
@[simp] theorem State.release_lF (s : State) (rs : List Reg) : (s.release rs).lF = s.lF := rfl
@[simp] theorem State.release_lD (s : State) (rs : List Reg) : (s.release rs).lD = s.lD := rfl
@[simp] theorem State.release_lE (s : State) (rs : List Reg) : (s.release rs).lE = s.lE := rfl
@[simp] theorem State.release_lM (s : State) (rs : List Reg) : (s.release rs).lM = s.lM := rfl
@[simp] theorem State.release_lW (s : State) (rs : List Reg) : (s.release rs).lW = s.lW := rfl
@[simp] theorem State.release_dmem (s : State) (rs : List Reg) : (s.release rs).dmem = s.dmem := rfl
@[simp] theorem State.release_phase (s : State) (rs : List Reg) : (s.release rs).phase = s.phase := rfl

/-! ### `State.setZNP` -/

@[simp] theorem State.setZNP_inputs (s : State) (v : Word) : (s.setZNP v).inputs = s.inputs := rfl
@[simp] theorem State.setZNP_pc (s : State) (v : Word) : (s.setZNP v).pc = s.pc := rfl
@[simp] theorem State.setZNP_x (s : State) (v : Word) : (s.setZNP v).x = s.x := rfl
@[simp] theorem State.setZNP_ready (s : State) (v : Word) : (s.setZNP v).ready = s.ready := rfl
@[simp] theorem State.setZNP_z (s : State) (v : Word) : (s.setZNP v).z = zeroFlag v := rfl
@[simp] theorem State.setZNP_n (s : State) (v : Word) : (s.setZNP v).n = negativeFlag v := rfl
@[simp] theorem State.setZNP_p (s : State) (v : Word) : (s.setZNP v).p = positiveFlag v := rfl
@[simp] theorem State.setZNP_flagsValid (s : State) (v : Word) : (s.setZNP v).flagsValid = s.flagsValid := rfl
@[simp] theorem State.setZNP_clk (s : State) (v : Word) : (s.setZNP v).clk = s.clk := rfl
@[simp] theorem State.setZNP_icount (s : State) (v : Word) : (s.setZNP v).icount = s.icount := rfl
@[simp] theorem State.setZNP_runState (s : State) (v : Word) : (s.setZNP v).runState = s.runState := rfl
@[simp] theorem State.setZNP_fSkip (s : State) (v : Word) : (s.setZNP v).fSkip = s.fSkip := rfl
@[simp] theorem State.setZNP_lF (s : State) (v : Word) : (s.setZNP v).lF = s.lF := rfl
@[simp] theorem State.setZNP_lD (s : State) (v : Word) : (s.setZNP v).lD = s.lD := rfl
@[simp] theorem State.setZNP_lE (s : State) (v : Word) : (s.setZNP v).lE = s.lE := rfl
@[simp] theorem State.setZNP_lM (s : State) (v : Word) : (s.setZNP v).lM = s.lM := rfl
@[simp] theorem State.setZNP_lW (s : State) (v : Word) : (s.setZNP v).lW = s.lW := rfl
@[simp] theorem State.setZNP_dmem (s : State) (v : Word) : (s.setZNP v).dmem = s.dmem := rfl
@[simp] theorem State.setZNP_phase (s : State) (v : Word) : (s.setZNP v).phase = s.phase := rfl

/-! ### `State.produceFlags` -/

@[simp] theorem State.produceFlags_inputs (s : State) (v : Word) : (s.produceFlags v).inputs = s.inputs := rfl
@[simp] theorem State.produceFlags_pc (s : State) (v : Word) : (s.produceFlags v).pc = s.pc := rfl
@[simp] theorem State.produceFlags_x (s : State) (v : Word) : (s.produceFlags v).x = s.x := rfl
@[simp] theorem State.produceFlags_ready (s : State) (v : Word) : (s.produceFlags v).ready = s.ready := rfl
@[simp] theorem State.produceFlags_z (s : State) (v : Word) : (s.produceFlags v).z = zeroFlag v := rfl
@[simp] theorem State.produceFlags_n (s : State) (v : Word) : (s.produceFlags v).n = negativeFlag v := rfl
@[simp] theorem State.produceFlags_p (s : State) (v : Word) : (s.produceFlags v).p = positiveFlag v := rfl
@[simp] theorem State.produceFlags_flagsValid (s : State) (v : Word) : (s.produceFlags v).flagsValid = false := rfl
@[simp] theorem State.produceFlags_clk (s : State) (v : Word) : (s.produceFlags v).clk = s.clk := rfl
@[simp] theorem State.produceFlags_icount (s : State) (v : Word) : (s.produceFlags v).icount = s.icount := rfl
@[simp] theorem State.produceFlags_runState (s : State) (v : Word) : (s.produceFlags v).runState = s.runState := rfl
@[simp] theorem State.produceFlags_fSkip (s : State) (v : Word) : (s.produceFlags v).fSkip = s.fSkip := rfl
@[simp] theorem State.produceFlags_lF (s : State) (v : Word) : (s.produceFlags v).lF = s.lF := rfl
@[simp] theorem State.produceFlags_lD (s : State) (v : Word) : (s.produceFlags v).lD = s.lD := rfl
@[simp] theorem State.produceFlags_lE (s : State) (v : Word) : (s.produceFlags v).lE = s.lE := rfl
@[simp] theorem State.produceFlags_lM (s : State) (v : Word) : (s.produceFlags v).lM = s.lM := rfl
@[simp] theorem State.produceFlags_lW (s : State) (v : Word) : (s.produceFlags v).lW = s.lW := rfl
@[simp] theorem State.produceFlags_dmem (s : State) (v : Word) : (s.produceFlags v).dmem = s.dmem := rfl
@[simp] theorem State.produceFlags_phase (s : State) (v : Word) : (s.produceFlags v).phase = s.phase := rfl

/-! ### `State.commitFlags` -/

@[simp] theorem State.commitFlags_inputs (s : State) (i : Instr) : (s.commitFlags i).inputs = s.inputs := rfl
@[simp] theorem State.commitFlags_pc (s : State) (i : Instr) : (s.commitFlags i).pc = s.pc := rfl
@[simp] theorem State.commitFlags_x (s : State) (i : Instr) : (s.commitFlags i).x = s.x := rfl
@[simp] theorem State.commitFlags_ready (s : State) (i : Instr) : (s.commitFlags i).ready = s.ready := rfl
@[simp] theorem State.commitFlags_z (s : State) (i : Instr) : (s.commitFlags i).z = s.z := rfl
@[simp] theorem State.commitFlags_n (s : State) (i : Instr) : (s.commitFlags i).n = s.n := rfl
@[simp] theorem State.commitFlags_p (s : State) (i : Instr) : (s.commitFlags i).p = s.p := rfl
@[simp] theorem State.commitFlags_flagsValid (s : State) (i : Instr) :
    (s.commitFlags i).flagsValid = if isFlagProducer i && !(s.lE.isProducer || s.lM.isProducer) then true else s.flagsValid := rfl
@[simp] theorem State.commitFlags_clk (s : State) (i : Instr) : (s.commitFlags i).clk = s.clk := rfl
@[simp] theorem State.commitFlags_icount (s : State) (i : Instr) : (s.commitFlags i).icount = s.icount := rfl
@[simp] theorem State.commitFlags_runState (s : State) (i : Instr) : (s.commitFlags i).runState = s.runState := rfl
@[simp] theorem State.commitFlags_fSkip (s : State) (i : Instr) : (s.commitFlags i).fSkip = s.fSkip := rfl
@[simp] theorem State.commitFlags_lF (s : State) (i : Instr) : (s.commitFlags i).lF = s.lF := rfl
@[simp] theorem State.commitFlags_lD (s : State) (i : Instr) : (s.commitFlags i).lD = s.lD := rfl
@[simp] theorem State.commitFlags_lE (s : State) (i : Instr) : (s.commitFlags i).lE = s.lE := rfl
@[simp] theorem State.commitFlags_lM (s : State) (i : Instr) : (s.commitFlags i).lM = s.lM := rfl
@[simp] theorem State.commitFlags_lW (s : State) (i : Instr) : (s.commitFlags i).lW = s.lW := rfl
@[simp] theorem State.commitFlags_dmem (s : State) (i : Instr) : (s.commitFlags i).dmem = s.dmem := rfl
@[simp] theorem State.commitFlags_phase (s : State) (i : Instr) : (s.commitFlags i).phase = s.phase := rfl

/-! ### `State.putWord` -/

@[simp] theorem State.putWord_inputs (s : State) (a v : Word) : (s.putWord a v).inputs = s.inputs := rfl
@[simp] theorem State.putWord_pc (s : State) (a v : Word) : (s.putWord a v).pc = s.pc := rfl
@[simp] theorem State.putWord_x (s : State) (a v : Word) : (s.putWord a v).x = s.x := rfl
@[simp] theorem State.putWord_ready (s : State) (a v : Word) : (s.putWord a v).ready = s.ready := rfl
@[simp] theorem State.putWord_z (s : State) (a v : Word) : (s.putWord a v).z = s.z := rfl
@[simp] theorem State.putWord_n (s : State) (a v : Word) : (s.putWord a v).n = s.n := rfl
@[simp] theorem State.putWord_p (s : State) (a v : Word) : (s.putWord a v).p = s.p := rfl
@[simp] theorem State.putWord_flagsValid (s : State) (a v : Word) : (s.putWord a v).flagsValid = s.flagsValid := rfl
@[simp] theorem State.putWord_clk (s : State) (a v : Word) : (s.putWord a v).clk = s.clk := rfl
@[simp] theorem State.putWord_icount (s : State) (a v : Word) : (s.putWord a v).icount = s.icount := rfl
@[simp] theorem State.putWord_runState (s : State) (a v : Word) : (s.putWord a v).runState = s.runState := rfl
@[simp] theorem State.putWord_fSkip (s : State) (a v : Word) : (s.putWord a v).fSkip = s.fSkip := rfl
@[simp] theorem State.putWord_lF (s : State) (a v : Word) : (s.putWord a v).lF = s.lF := rfl
@[simp] theorem State.putWord_lD (s : State) (a v : Word) : (s.putWord a v).lD = s.lD := rfl
@[simp] theorem State.putWord_lE (s : State) (a v : Word) : (s.putWord a v).lE = s.lE := rfl
@[simp] theorem State.putWord_lM (s : State) (a v : Word) : (s.putWord a v).lM = s.lM := rfl
@[simp] theorem State.putWord_lW (s : State) (a v : Word) : (s.putWord a v).lW = s.lW := rfl
@[simp] theorem State.putWord_dmem (s : State) (a v : Word) :
    (s.putWord a v).dmem = Memory.write s.dmem a.toInt.toNat v := rfl
@[simp] theorem State.putWord_phase (s : State) (a v : Word) : (s.putWord a v).phase = s.phase := rfl

/-! ### `State.fillFetch` -/

@[simp] theorem State.fillFetch_inputs (s : State) (r : Record) : (s.fillFetch r).inputs = s.inputs := rfl
@[simp] theorem State.fillFetch_pc (s : State) (r : Record) : (s.fillFetch r).pc = nextPc s.pc := rfl
@[simp] theorem State.fillFetch_x (s : State) (r : Record) : (s.fillFetch r).x = s.x := rfl
@[simp] theorem State.fillFetch_ready (s : State) (r : Record) : (s.fillFetch r).ready = s.ready := rfl
@[simp] theorem State.fillFetch_z (s : State) (r : Record) : (s.fillFetch r).z = s.z := rfl
@[simp] theorem State.fillFetch_n (s : State) (r : Record) : (s.fillFetch r).n = s.n := rfl
@[simp] theorem State.fillFetch_p (s : State) (r : Record) : (s.fillFetch r).p = s.p := rfl
@[simp] theorem State.fillFetch_flagsValid (s : State) (r : Record) : (s.fillFetch r).flagsValid = s.flagsValid := rfl
@[simp] theorem State.fillFetch_clk (s : State) (r : Record) : (s.fillFetch r).clk = s.clk := rfl
@[simp] theorem State.fillFetch_icount (s : State) (r : Record) : (s.fillFetch r).icount = s.icount := rfl
@[simp] theorem State.fillFetch_runState (s : State) (r : Record) : (s.fillFetch r).runState = s.runState := rfl
@[simp] theorem State.fillFetch_fSkip (s : State) (r : Record) : (s.fillFetch r).fSkip = s.fSkip := rfl
@[simp] theorem State.fillFetch_lF (s : State) (r : Record) : (s.fillFetch r).lF = Latch.fetched r s.pc := rfl
@[simp] theorem State.fillFetch_lD (s : State) (r : Record) : (s.fillFetch r).lD = s.lD := rfl
@[simp] theorem State.fillFetch_lE (s : State) (r : Record) : (s.fillFetch r).lE = s.lE := rfl
@[simp] theorem State.fillFetch_lM (s : State) (r : Record) : (s.fillFetch r).lM = s.lM := rfl
@[simp] theorem State.fillFetch_lW (s : State) (r : Record) : (s.fillFetch r).lW = s.lW := rfl
@[simp] theorem State.fillFetch_dmem (s : State) (r : Record) : (s.fillFetch r).dmem = s.dmem := rfl
@[simp] theorem State.fillFetch_phase (s : State) (r : Record) : (s.fillFetch r).phase = s.phase := rfl

/-! ### `State.stallDecode` -/

@[simp] theorem State.stallDecode_inputs (s : State) : s.stallDecode.inputs = s.inputs := rfl
@[simp] theorem State.stallDecode_pc (s : State) : s.stallDecode.pc = s.pc := rfl
@[simp] theorem State.stallDecode_x (s : State) : s.stallDecode.x = s.x := rfl
@[simp] theorem State.stallDecode_ready (s : State) : s.stallDecode.ready = s.ready := rfl
@[simp] theorem State.stallDecode_z (s : State) : s.stallDecode.z = s.z := rfl
@[simp] theorem State.stallDecode_n (s : State) : s.stallDecode.n = s.n := rfl
@[simp] theorem State.stallDecode_p (s : State) : s.stallDecode.p = s.p := rfl
@[simp] theorem State.stallDecode_flagsValid (s : State) : s.stallDecode.flagsValid = s.flagsValid := rfl
@[simp] theorem State.stallDecode_clk (s : State) : s.stallDecode.clk = s.clk := rfl
@[simp] theorem State.stallDecode_icount (s : State) : s.stallDecode.icount = s.icount := rfl
@[simp] theorem State.stallDecode_runState (s : State) : s.stallDecode.runState = s.runState := rfl
@[simp] theorem State.stallDecode_fSkip (s : State) : s.stallDecode.fSkip = s.fSkip := rfl
@[simp] theorem State.stallDecode_lF (s : State) : s.stallDecode.lF = s.lF := rfl
@[simp] theorem State.stallDecode_lD (s : State) : s.stallDecode.lD = { s.lD with stalled := true } := rfl
@[simp] theorem State.stallDecode_lE (s : State) : s.stallDecode.lE = s.lE := rfl
@[simp] theorem State.stallDecode_lM (s : State) : s.stallDecode.lM = s.lM := rfl
@[simp] theorem State.stallDecode_lW (s : State) : s.stallDecode.lW = s.lW := rfl
@[simp] theorem State.stallDecode_dmem (s : State) : s.stallDecode.dmem = s.dmem := rfl
@[simp] theorem State.stallDecode_phase (s : State) : s.stallDecode.phase = s.phase := rfl

/-! ### `State.dispatched` -/

@[simp] theorem State.dispatched_inputs (s : State) (i : Instr) : (s.dispatched i).inputs = s.inputs := rfl
@[simp] theorem State.dispatched_pc (s : State) (i : Instr) : (s.dispatched i).pc = s.pc := rfl
@[simp] theorem State.dispatched_x (s : State) (i : Instr) : (s.dispatched i).x = s.x := rfl
@[simp] theorem State.dispatched_ready (s : State) (i : Instr) :
    (s.dispatched i).ready = setReadyBits s.ready (fun _ => false) (destsOf i) := rfl
@[simp] theorem State.dispatched_z (s : State) (i : Instr) : (s.dispatched i).z = s.z := rfl
@[simp] theorem State.dispatched_n (s : State) (i : Instr) : (s.dispatched i).n = s.n := rfl
@[simp] theorem State.dispatched_p (s : State) (i : Instr) : (s.dispatched i).p = s.p := rfl
@[simp] theorem State.dispatched_flagsValid (s : State) (i : Instr) :
    (s.dispatched i).flagsValid = s.flagsValid := rfl
@[simp] theorem State.dispatched_clk (s : State) (i : Instr) : (s.dispatched i).clk = s.clk := rfl
@[simp] theorem State.dispatched_icount (s : State) (i : Instr) : (s.dispatched i).icount = s.icount := rfl
@[simp] theorem State.dispatched_runState (s : State) (i : Instr) : (s.dispatched i).runState = s.runState := rfl
@[simp] theorem State.dispatched_fSkip (s : State) (i : Instr) : (s.dispatched i).fSkip = s.fSkip := rfl
@[simp] theorem State.dispatched_lF (s : State) (i : Instr) : (s.dispatched i).lF = s.lF := rfl
@[simp] theorem State.dispatched_lD (s : State) (i : Instr) : (s.dispatched i).lD = Latch.bubble := rfl
@[simp] theorem State.dispatched_lE (s : State) (i : Instr) : (s.dispatched i).lE = (s.readOperands i).payload := rfl
@[simp] theorem State.dispatched_lM (s : State) (i : Instr) : (s.dispatched i).lM = s.lM := rfl
@[simp] theorem State.dispatched_lW (s : State) (i : Instr) : (s.dispatched i).lW = s.lW := rfl
@[simp] theorem State.dispatched_dmem (s : State) (i : Instr) : (s.dispatched i).dmem = s.dmem := rfl
@[simp] theorem State.dispatched_phase (s : State) (i : Instr) : (s.dispatched i).phase = s.phase := rfl

/-! ### `State.dispatchedHalt` -/

@[simp] theorem State.dispatchedHalt_inputs (s : State) (i : Instr) : (s.dispatchedHalt i).inputs = s.inputs := rfl
@[simp] theorem State.dispatchedHalt_pc (s : State) (i : Instr) : (s.dispatchedHalt i).pc = s.pc := rfl
@[simp] theorem State.dispatchedHalt_x (s : State) (i : Instr) : (s.dispatchedHalt i).x = s.x := rfl
@[simp] theorem State.dispatchedHalt_ready (s : State) (i : Instr) :
    (s.dispatchedHalt i).ready = setReadyBits s.ready (fun _ => false) (destsOf i) := rfl
@[simp] theorem State.dispatchedHalt_z (s : State) (i : Instr) : (s.dispatchedHalt i).z = s.z := rfl
@[simp] theorem State.dispatchedHalt_n (s : State) (i : Instr) : (s.dispatchedHalt i).n = s.n := rfl
@[simp] theorem State.dispatchedHalt_p (s : State) (i : Instr) : (s.dispatchedHalt i).p = s.p := rfl
@[simp] theorem State.dispatchedHalt_flagsValid (s : State) (i : Instr) :
    (s.dispatchedHalt i).flagsValid = s.flagsValid := rfl
@[simp] theorem State.dispatchedHalt_clk (s : State) (i : Instr) : (s.dispatchedHalt i).clk = s.clk := rfl
@[simp] theorem State.dispatchedHalt_icount (s : State) (i : Instr) : (s.dispatchedHalt i).icount = s.icount := rfl
@[simp] theorem State.dispatchedHalt_runState (s : State) (i : Instr) :
    (s.dispatchedHalt i).runState = s.runState := rfl
@[simp] theorem State.dispatchedHalt_fSkip (s : State) (i : Instr) : (s.dispatchedHalt i).fSkip = s.fSkip := rfl
@[simp] theorem State.dispatchedHalt_lF (s : State) (i : Instr) :
    (s.dispatchedHalt i).lF = { s.lF with interrupted := true } := rfl
@[simp] theorem State.dispatchedHalt_lD (s : State) (i : Instr) :
    (s.dispatchedHalt i).lD = { s.readOperands i with stalled := false, interrupted := true } := rfl
@[simp] theorem State.dispatchedHalt_lE (s : State) (i : Instr) :
    (s.dispatchedHalt i).lE = (s.readOperands i).payload := rfl
@[simp] theorem State.dispatchedHalt_lM (s : State) (i : Instr) : (s.dispatchedHalt i).lM = s.lM := rfl
@[simp] theorem State.dispatchedHalt_lW (s : State) (i : Instr) : (s.dispatchedHalt i).lW = s.lW := rfl
@[simp] theorem State.dispatchedHalt_dmem (s : State) (i : Instr) : (s.dispatchedHalt i).dmem = s.dmem := rfl
@[simp] theorem State.dispatchedHalt_phase (s : State) (i : Instr) : (s.dispatchedHalt i).phase = s.phase := rfl

/-! ### `State.toMemory` -/

@[simp] theorem State.toMemory_inputs (s : State) (l : Latch) : (s.toMemory l).inputs = s.inputs := rfl
@[simp] theorem State.toMemory_pc (s : State) (l : Latch) : (s.toMemory l).pc = s.pc := rfl
@[simp] theorem State.toMemory_x (s : State) (l : Latch) : (s.toMemory l).x = s.x := rfl
@[simp] theorem State.toMemory_ready (s : State) (l : Latch) : (s.toMemory l).ready = s.ready := rfl
@[simp] theorem State.toMemory_z (s : State) (l : Latch) : (s.toMemory l).z = s.z := rfl
@[simp] theorem State.toMemory_n (s : State) (l : Latch) : (s.toMemory l).n = s.n := rfl
@[simp] theorem State.toMemory_p (s : State) (l : Latch) : (s.toMemory l).p = s.p := rfl
@[simp] theorem State.toMemory_flagsValid (s : State) (l : Latch) : (s.toMemory l).flagsValid = s.flagsValid := rfl
@[simp] theorem State.toMemory_clk (s : State) (l : Latch) : (s.toMemory l).clk = s.clk := rfl
@[simp] theorem State.toMemory_icount (s : State) (l : Latch) : (s.toMemory l).icount = s.icount := rfl
@[simp] theorem State.toMemory_runState (s : State) (l : Latch) : (s.toMemory l).runState = s.runState := rfl
@[simp] theorem State.toMemory_fSkip (s : State) (l : Latch) : (s.toMemory l).fSkip = s.fSkip := rfl
@[simp] theorem State.toMemory_lF (s : State) (l : Latch) : (s.toMemory l).lF = s.lF := rfl
@[simp] theorem State.toMemory_lD (s : State) (l : Latch) : (s.toMemory l).lD = s.lD := rfl
@[simp] theorem State.toMemory_lE (s : State) (l : Latch) : (s.toMemory l).lE = Latch.bubble := rfl
@[simp] theorem State.toMemory_lM (s : State) (l : Latch) : (s.toMemory l).lM = l.payload := rfl
@[simp] theorem State.toMemory_lW (s : State) (l : Latch) : (s.toMemory l).lW = s.lW := rfl
@[simp] theorem State.toMemory_dmem (s : State) (l : Latch) : (s.toMemory l).dmem = s.dmem := rfl
@[simp] theorem State.toMemory_phase (s : State) (l : Latch) : (s.toMemory l).phase = s.phase := rfl

/-! ### `State.redirect` -/

@[simp] theorem State.redirect_inputs (s : State) (t : Word) : (s.redirect t).inputs = s.inputs := rfl
@[simp] theorem State.redirect_pc (s : State) (t : Word) : (s.redirect t).pc = t := rfl
@[simp] theorem State.redirect_x (s : State) (t : Word) : (s.redirect t).x = s.x := rfl
@[simp] theorem State.redirect_ready (s : State) (t : Word) : (s.redirect t).ready = s.ready := rfl
@[simp] theorem State.redirect_z (s : State) (t : Word) : (s.redirect t).z = s.z := rfl
@[simp] theorem State.redirect_n (s : State) (t : Word) : (s.redirect t).n = s.n := rfl
@[simp] theorem State.redirect_p (s : State) (t : Word) : (s.redirect t).p = s.p := rfl
@[simp] theorem State.redirect_flagsValid (s : State) (t : Word) : (s.redirect t).flagsValid = s.flagsValid := rfl
@[simp] theorem State.redirect_clk (s : State) (t : Word) : (s.redirect t).clk = s.clk := rfl
@[simp] theorem State.redirect_icount (s : State) (t : Word) : (s.redirect t).icount = s.icount := rfl
@[simp] theorem State.redirect_runState (s : State) (t : Word) : (s.redirect t).runState = s.runState := rfl
@[simp] theorem State.redirect_fSkip (s : State) (t : Word) : (s.redirect t).fSkip = true := rfl
@[simp] theorem State.redirect_lF (s : State) (t : Word) : (s.redirect t).lF = Latch.bubble := rfl
@[simp] theorem State.redirect_lD (s : State) (t : Word) : (s.redirect t).lD = Latch.bubble := rfl
@[simp] theorem State.redirect_lE (s : State) (t : Word) : (s.redirect t).lE = s.lE := rfl
@[simp] theorem State.redirect_lM (s : State) (t : Word) : (s.redirect t).lM = s.lM := rfl
@[simp] theorem State.redirect_lW (s : State) (t : Word) : (s.redirect t).lW = s.lW := rfl
@[simp] theorem State.redirect_dmem (s : State) (t : Word) : (s.redirect t).dmem = s.dmem := rfl
@[simp] theorem State.redirect_phase (s : State) (t : Word) : (s.redirect t).phase = s.phase := rfl

/-! ### `State.toWriteback` -/

@[simp] theorem State.toWriteback_inputs (s : State) (l : Latch) : (s.toWriteback l).inputs = s.inputs := rfl
@[simp] theorem State.toWriteback_pc (s : State) (l : Latch) : (s.toWriteback l).pc = s.pc := rfl
@[simp] theorem State.toWriteback_x (s : State) (l : Latch) : (s.toWriteback l).x = s.x := rfl
@[simp] theorem State.toWriteback_ready (s : State) (l : Latch) : (s.toWriteback l).ready = s.ready := rfl
@[simp] theorem State.toWriteback_z (s : State) (l : Latch) : (s.toWriteback l).z = s.z := rfl
@[simp] theorem State.toWriteback_n (s : State) (l : Latch) : (s.toWriteback l).n = s.n := rfl
@[simp] theorem State.toWriteback_p (s : State) (l : Latch) : (s.toWriteback l).p = s.p := rfl
@[simp] theorem State.toWriteback_flagsValid (s : State) (l : Latch) :
    (s.toWriteback l).flagsValid = s.flagsValid := rfl
@[simp] theorem State.toWriteback_clk (s : State) (l : Latch) : (s.toWriteback l).clk = s.clk := rfl
@[simp] theorem State.toWriteback_icount (s : State) (l : Latch) : (s.toWriteback l).icount = s.icount := rfl
@[simp] theorem State.toWriteback_runState (s : State) (l : Latch) : (s.toWriteback l).runState = s.runState := rfl
@[simp] theorem State.toWriteback_fSkip (s : State) (l : Latch) : (s.toWriteback l).fSkip = s.fSkip := rfl
@[simp] theorem State.toWriteback_lF (s : State) (l : Latch) : (s.toWriteback l).lF = s.lF := rfl
@[simp] theorem State.toWriteback_lD (s : State) (l : Latch) : (s.toWriteback l).lD = s.lD := rfl
@[simp] theorem State.toWriteback_lE (s : State) (l : Latch) : (s.toWriteback l).lE = s.lE := rfl
@[simp] theorem State.toWriteback_lM (s : State) (l : Latch) : (s.toWriteback l).lM = Latch.bubble := rfl
@[simp] theorem State.toWriteback_lW (s : State) (l : Latch) : (s.toWriteback l).lW = l.payload := rfl
@[simp] theorem State.toWriteback_dmem (s : State) (l : Latch) : (s.toWriteback l).dmem = s.dmem := rfl
@[simp] theorem State.toWriteback_phase (s : State) (l : Latch) : (s.toWriteback l).phase = s.phase := rfl

/-! ### `State.retire` -/

@[simp] theorem State.retire_inputs (s : State) (i : Instr) : (s.retire i).inputs = s.inputs := rfl
@[simp] theorem State.retire_pc (s : State) (i : Instr) : (s.retire i).pc = s.pc := rfl
@[simp] theorem State.retire_x (s : State) (i : Instr) : (s.retire i).x = s.x := rfl
@[simp] theorem State.retire_ready (s : State) (i : Instr) :
    (s.retire i).ready = setReadyBits s.ready (fun r => !(s.lE.writes r || s.lM.writes r)) (destsOf i) := rfl
@[simp] theorem State.retire_z (s : State) (i : Instr) : (s.retire i).z = s.z := rfl
@[simp] theorem State.retire_n (s : State) (i : Instr) : (s.retire i).n = s.n := rfl
@[simp] theorem State.retire_p (s : State) (i : Instr) : (s.retire i).p = s.p := rfl
@[simp] theorem State.retire_flagsValid (s : State) (i : Instr) :
    (s.retire i).flagsValid = if isFlagProducer i && !(s.lE.isProducer || s.lM.isProducer) then true else s.flagsValid := rfl
@[simp] theorem State.retire_clk (s : State) (i : Instr) : (s.retire i).clk = s.clk := rfl
@[simp] theorem State.retire_icount (s : State) (i : Instr) : (s.retire i).icount = s.icount + 1 := rfl
@[simp] theorem State.retire_runState (s : State) (i : Instr) : (s.retire i).runState = s.runState := rfl
@[simp] theorem State.retire_fSkip (s : State) (i : Instr) : (s.retire i).fSkip = s.fSkip := rfl
@[simp] theorem State.retire_lF (s : State) (i : Instr) : (s.retire i).lF = s.lF := rfl
@[simp] theorem State.retire_lD (s : State) (i : Instr) : (s.retire i).lD = s.lD := rfl
@[simp] theorem State.retire_lE (s : State) (i : Instr) : (s.retire i).lE = s.lE := rfl
@[simp] theorem State.retire_lM (s : State) (i : Instr) : (s.retire i).lM = s.lM := rfl
@[simp] theorem State.retire_lW (s : State) (i : Instr) : (s.retire i).lW = Latch.bubble := rfl
@[simp] theorem State.retire_dmem (s : State) (i : Instr) : (s.retire i).dmem = s.dmem := rfl
@[simp] theorem State.retire_phase (s : State) (i : Instr) : (s.retire i).phase = s.phase := rfl

/-! ### `State.tick` -/

@[simp] theorem State.tick_inputs (s : State) : s.tick.inputs = s.inputs := rfl
@[simp] theorem State.tick_pc (s : State) : s.tick.pc = s.pc := rfl
@[simp] theorem State.tick_x (s : State) : s.tick.x = s.x := rfl
@[simp] theorem State.tick_ready (s : State) : s.tick.ready = s.ready := rfl
@[simp] theorem State.tick_z (s : State) : s.tick.z = s.z := rfl
@[simp] theorem State.tick_n (s : State) : s.tick.n = s.n := rfl
@[simp] theorem State.tick_p (s : State) : s.tick.p = s.p := rfl
@[simp] theorem State.tick_flagsValid (s : State) : s.tick.flagsValid = s.flagsValid := rfl
@[simp] theorem State.tick_clk (s : State) : s.tick.clk = s.clk + 1 := rfl
@[simp] theorem State.tick_icount (s : State) : s.tick.icount = s.icount := rfl
@[simp] theorem State.tick_runState (s : State) : s.tick.runState = s.runState := rfl
@[simp] theorem State.tick_fSkip (s : State) : s.tick.fSkip = s.fSkip := rfl
@[simp] theorem State.tick_lF (s : State) : s.tick.lF = s.lF := rfl
@[simp] theorem State.tick_lD (s : State) : s.tick.lD = s.lD := rfl
@[simp] theorem State.tick_lE (s : State) : s.tick.lE = s.lE := rfl
@[simp] theorem State.tick_lM (s : State) : s.tick.lM = s.lM := rfl
@[simp] theorem State.tick_lW (s : State) : s.tick.lW = s.lW := rfl
@[simp] theorem State.tick_dmem (s : State) : s.tick.dmem = s.dmem := rfl
@[simp] theorem State.tick_phase (s : State) : s.tick.phase = s.phase := rfl

/-! ### `State.pushFetch` -/

@[simp] theorem State.pushFetch_inputs (s : State) : s.pushFetch.inputs = s.inputs := by
  unfold State.pushFetch; split <;> rfl
@[simp] theorem State.pushFetch_pc (s : State) : s.pushFetch.pc = s.pc := by
  unfold State.pushFetch; split <;> rfl
@[simp] theorem State.pushFetch_x (s : State) : s.pushFetch.x = s.x := by
  unfold State.pushFetch; split <;> rfl
@[simp] theorem State.pushFetch_ready (s : State) : s.pushFetch.ready = s.ready := by
  unfold State.pushFetch; split <;> rfl
@[simp] theorem State.pushFetch_z (s : State) : s.pushFetch.z = s.z := by
  unfold State.pushFetch; split <;> rfl
@[simp] theorem State.pushFetch_n (s : State) : s.pushFetch.n = s.n := by
  unfold State.pushFetch; split <;> rfl
@[simp] theorem State.pushFetch_p (s : State) : s.pushFetch.p = s.p := by
  unfold State.pushFetch; split <;> rfl
@[simp] theorem State.pushFetch_flagsValid (s : State) : s.pushFetch.flagsValid = s.flagsValid := by
  unfold State.pushFetch; split <;> rfl
@[simp] theorem State.pushFetch_clk (s : State) : s.pushFetch.clk = s.clk := by
  unfold State.pushFetch; split <;> rfl
@[simp] theorem State.pushFetch_icount (s : State) : s.pushFetch.icount = s.icount := by
  unfold State.pushFetch; split <;> rfl
@[simp] theorem State.pushFetch_runState (s : State) : s.pushFetch.runState = s.runState := by
  unfold State.pushFetch; split <;> rfl
@[simp] theorem State.pushFetch_fSkip (s : State) : s.pushFetch.fSkip = s.fSkip := by
  unfold State.pushFetch; split <;> rfl
@[simp] theorem State.pushFetch_lE (s : State) : s.pushFetch.lE = s.lE := by
  unfold State.pushFetch; split <;> rfl
@[simp] theorem State.pushFetch_lM (s : State) : s.pushFetch.lM = s.lM := by
  unfold State.pushFetch; split <;> rfl
@[simp] theorem State.pushFetch_lW (s : State) : s.pushFetch.lW = s.lW := by
  unfold State.pushFetch; split <;> rfl
@[simp] theorem State.pushFetch_dmem (s : State) : s.pushFetch.dmem = s.dmem := by
  unfold State.pushFetch; split <;> rfl
@[simp] theorem State.pushFetch_phase (s : State) : s.pushFetch.phase = s.phase := by
  unfold State.pushFetch; split <;> rfl
@[simp] theorem State.pushFetch_lF (s : State) :
    s.pushFetch.lF = if s.lD.stalled then { s.lF with stalled := true } else Latch.bubble := by
  unfold State.pushFetch; split <;> rfl
@[simp] theorem State.pushFetch_lD (s : State) :
    s.pushFetch.lD = if s.lD.stalled then s.lD else s.lF.payload := by
  unfold State.pushFetch; split <;> rfl

/-! ### Latches -/

@[simp] theorem Latch.payload_opcode (l : Latch) : l.payload.opcode = l.opcode := rfl
@[simp] theorem Latch.payload_rd (l : Latch) : l.payload.rd = l.rd := rfl
@[simp] theorem Latch.payload_rs1 (l : Latch) : l.payload.rs1 = l.rs1 := rfl
@[simp] theorem Latch.payload_rs2 (l : Latch) : l.payload.rs2 = l.rs2 := rfl
@[simp] theorem Latch.payload_imm (l : Latch) : l.payload.imm = l.imm := rfl
@[simp] theorem Latch.payload_pc (l : Latch) : l.payload.pc = l.pc := rfl
@[simp] theorem Latch.payload_rs1Value (l : Latch) : l.payload.rs1Value = l.rs1Value := rfl
@[simp] theorem Latch.payload_rs2Value (l : Latch) : l.payload.rs2Value = l.rs2Value := rfl
@[simp] theorem Latch.payload_result (l : Latch) : l.payload.result = l.result := rfl
@[simp] theorem Latch.payload_memoryAddress (l : Latch) : l.payload.memoryAddress = l.memoryAddress := rfl
@[simp] theorem Latch.payload_baseNext (l : Latch) : l.payload.baseNext = l.baseNext := rfl
@[simp] theorem Latch.payload_empty (l : Latch) : l.payload.empty = false := rfl
@[simp] theorem Latch.payload_stalled (l : Latch) : l.payload.stalled = false := rfl
@[simp] theorem Latch.payload_interrupted (l : Latch) : l.payload.interrupted = false := rfl
@[simp] theorem Latch.fetched_opcode (r : Record) (pc : Word) : (Latch.fetched r pc).opcode = r.opcode := rfl
@[simp] theorem Latch.fetched_rd (r : Record) (pc : Word) : (Latch.fetched r pc).rd = r.rd := rfl
@[simp] theorem Latch.fetched_rs1 (r : Record) (pc : Word) : (Latch.fetched r pc).rs1 = r.rs1 := rfl
@[simp] theorem Latch.fetched_rs2 (r : Record) (pc : Word) : (Latch.fetched r pc).rs2 = r.rs2 := rfl
@[simp] theorem Latch.fetched_imm (r : Record) (pc : Word) : (Latch.fetched r pc).imm = r.imm := rfl
@[simp] theorem Latch.fetched_pc (r : Record) (pc : Word) : (Latch.fetched r pc).pc = pc := rfl
@[simp] theorem Latch.fetched_rs1Value (r : Record) (pc : Word) : (Latch.fetched r pc).rs1Value = 0#32 := rfl
@[simp] theorem Latch.fetched_rs2Value (r : Record) (pc : Word) : (Latch.fetched r pc).rs2Value = 0#32 := rfl
@[simp] theorem Latch.fetched_result (r : Record) (pc : Word) : (Latch.fetched r pc).result = 0#32 := rfl
@[simp] theorem Latch.fetched_memoryAddress (r : Record) (pc : Word) : (Latch.fetched r pc).memoryAddress = 0#32 := rfl
@[simp] theorem Latch.fetched_baseNext (r : Record) (pc : Word) : (Latch.fetched r pc).baseNext = 0#32 := rfl
@[simp] theorem Latch.fetched_empty (r : Record) (pc : Word) : (Latch.fetched r pc).empty = false := rfl
@[simp] theorem Latch.fetched_stalled (r : Record) (pc : Word) : (Latch.fetched r pc).stalled = false := rfl
@[simp] theorem Latch.fetched_interrupted (r : Record) (pc : Word) : (Latch.fetched r pc).interrupted = false := rfl
@[simp] theorem Latch.bubble_empty : Latch.bubble.empty = true := rfl
@[simp] theorem Latch.bubble_stalled : Latch.bubble.stalled = false := rfl
@[simp] theorem Latch.bubble_interrupted : Latch.bubble.interrupted = false := rfl
@[simp] theorem Latch.payload_instr (l : Latch) : l.payload.instr = l.instr := rfl
@[simp] theorem Latch.fetched_instr (r : Record) (pc : Word) : (Latch.fetched r pc).instr = r.toInstr := rfl
@[simp] theorem Latch.fetched_payload (r : Record) (pc : Word) : (Latch.fetched r pc).payload = Latch.fetched r pc := rfl
@[simp] theorem Latch.bubble_writes (r : Reg) : Latch.bubble.writes r = false := rfl
@[simp] theorem Latch.bubble_isProducer : Latch.bubble.isProducer = false := rfl
@[simp] theorem Latch.bubble_active : Latch.bubble.active = none := rfl

end Sys2Proof.Machine
end

