-- ==== Sys2Proof/Laws/Memory.lean ====
section
/-! SUPPORT. Data memory: the canonical form is kept by every operation, and reading after writing. -/

namespace Sys2Proof.Machine

/-- Below the lowest address of a canonical memory every word is unlisted. -/
theorem Memory.read_of_lt {lo : Nat} {m : Memory} (h : Memory.wfFrom lo m = true) {a : Nat} (ha : a < lo) :
    Memory.read m a = Memory.unlisted := by
  induction m generalizing lo with
  | nil => rfl
  | cons c m ih =>
    obtain ⟨b, w⟩ := c
    simp only [Memory.wfFrom, Bool.and_eq_true, decide_eq_true_eq] at h
    have : a ≠ b := by omega
    simp only [Memory.read, this, if_false]
    exact ih h.2 (by omega)

theorem Memory.wfFrom_mono {lo lo' : Nat} (hl : lo' ≤ lo) {m : Memory} (h : Memory.wfFrom lo m = true) :
    Memory.wfFrom lo' m = true := by
  cases m with
  | nil => rfl
  | cons c m =>
    obtain ⟨b, w⟩ := c
    simp only [Memory.wfFrom, Bool.and_eq_true, decide_eq_true_eq] at h ⊢
    exact ⟨⟨by omega, h.1.2⟩, h.2⟩

/-- A write keeps the canonical form from `lo` on, at an address from `lo` on. -/
theorem Memory.wfFrom_write {lo : Nat} {m : Memory} (h : Memory.wfFrom lo m = true) {a : Nat} (ha : lo ≤ a)
    (v : Word) : Memory.wfFrom lo (Memory.write m a v) = true := by
  induction m generalizing lo with
  | nil =>
    by_cases hv : v = Memory.unlisted <;> simp [Memory.write, Memory.wfFrom, hv, ha]
  | cons c m ih =>
    obtain ⟨b, w⟩ := c
    simp only [Memory.wfFrom, Bool.and_eq_true, decide_eq_true_eq, bne_iff_ne, ne_eq] at h
    obtain ⟨⟨hb, hw⟩, hm⟩ := h
    unfold Memory.write
    split
    · split
      · simp [Memory.wfFrom, hb, hw, hm]
      · rename_i hv
        simp [Memory.wfFrom, ha, hv, hw, hm]
        omega
    · split
      · subst_vars
        split
        · exact Memory.wfFrom_mono (by omega) hm
        · rename_i hv; simp [Memory.wfFrom, hb, hv, hm]
      · have := ih hm (by omega : b + 1 ≤ a)
        simp [Memory.wfFrom, hb, hw, this]

/-- Every write keeps the canonical form. -/
theorem Memory.wf_write {m : Memory} (h : Memory.wf m = true) (a : Nat) (v : Word) :
    Memory.wf (Memory.write m a v) = true := Memory.wfFrom_write h (Nat.zero_le a) v

theorem Memory.wf_empty : Memory.wf [] = true := rfl

/-- Reset's memory is in canonical form. -/
theorem Memory.wf_reset (inputs : Inputs) : Memory.wf (State.resetWith inputs).dmem = true := rfl

/-- A write leaves every other word alone. -/
theorem Memory.read_write_of_ne (m : Memory) {a b : Nat} (v : Word) (h : b ≠ a) :
    Memory.read (Memory.write m a v) b = Memory.read m b := by
  induction m with
  | nil =>
    by_cases hv : v = Memory.unlisted <;> simp [Memory.write, Memory.read, hv, h]
  | cons c m ih =>
    obtain ⟨k, w⟩ := c
    unfold Memory.write
    split
    · split <;> simp [Memory.read, h]
    · split
      · subst_vars; split <;> simp [Memory.read, h]
      · simp [Memory.read, ih]

/-- A write is read back. -/
theorem Memory.read_write_self {m : Memory} (hm : Memory.wf m = true) (a : Nat) (v : Word) :
    Memory.read (Memory.write m a v) a = v := by
  suffices h : ∀ lo, Memory.wfFrom lo m = true → Memory.read (Memory.write m a v) a = v from h 0 hm
  intro lo h
  clear hm
  induction m generalizing lo with
  | nil => by_cases hv : v = Memory.unlisted <;> simp [Memory.write, Memory.read, hv]
  | cons c m ih =>
    obtain ⟨b, w⟩ := c
    simp only [Memory.wfFrom, Bool.and_eq_true, decide_eq_true_eq] at h
    unfold Memory.write
    split
    · split
      · rename_i hlt hv
        have : a ≠ b := by omega
        simp only [Memory.read, this, if_false, hv]
        exact Memory.read_of_lt h.2 (by omega)
      · simp [Memory.read]
    · split
      · subst_vars
        split
        · rename_i hv; rw [hv]; exact Memory.read_of_lt h.2 (by omega)
        · simp [Memory.read]
      · rename_i h1 h2
        simp only [Memory.read, h2, if_false]
        exact ih _ h.2

/-- A write inside the memory keeps every listed address inside it. -/
theorem Memory.within_write {size : Nat} {m : Memory} (h : Memory.within size m = true) {a : Nat} (ha : a < size)
    (v : Word) : Memory.within size (Memory.write m a v) = true := by
  unfold Memory.within at *
  induction m with
  | nil => by_cases hv : v = Memory.unlisted <;> simp [Memory.write, hv, ha]
  | cons c m ih =>
    obtain ⟨b, w⟩ := c
    simp only [List.all_cons, Bool.and_eq_true, decide_eq_true_eq] at h
    have ih' := ih h.2
    unfold Memory.write
    split
    · split <;> simp only [List.all_cons, Bool.and_eq_true, decide_eq_true_eq, ha, h.1, h.2, and_self]
    · split
      · split <;> simp only [List.all_cons, Bool.and_eq_true, decide_eq_true_eq, ha, h.2, and_self]
      · simp only [List.all_cons, Bool.and_eq_true, decide_eq_true_eq, h.1, ih', and_self]

/-- What `MemRead` can answer (`20_memory.md` R42). -/
theorem State.memRead_cases (s : State) (addr : Word) :
    (s.dataAddressOk addr = true ∧ s.memRead addr = .ok (s.dataWord addr)) ∨
    (s.dataAddressOk addr = false ∧ s.memRead addr = .error .dataAddressOutOfRange) := by
  unfold State.memRead
  by_cases h : s.dataAddressOk addr = true <;> simp [h]

/-- What `MemWrite` can answer (`20_memory.md` R43). -/
theorem State.memWrite_cases (s : State) (addr v : Word) :
    (s.dataAddressOk addr = true ∧ s.memWrite addr v = .ok (s.putWord addr v)) ∨
    (s.dataAddressOk addr = false ∧ s.memWrite addr v = .error .dataAddressOutOfRange) := by
  unfold State.memWrite
  by_cases h : s.dataAddressOk addr = true <;> simp [h]

/-- `MemWrite` keeps the canonical form. -/
theorem State.memWrite_wf {s t : State} {addr v : Word} (h : s.memWrite addr v = .ok t)
    (hm : Memory.wf s.dmem = true) : Memory.wf t.dmem = true := by
  obtain ⟨_, h'⟩ | ⟨_, h'⟩ := s.memWrite_cases addr v
  · rw [h'] at h; cases h; exact Memory.wf_write hm _ _
  · rw [h'] at h; cases h

end Sys2Proof.Machine
end

