-- ==== Sys2Proof/Laws/Registers.lean ====
section
/-! SUPPORT. Reading registers and ready bits after the operations that write them. -/

namespace Sys2Proof.Machine

theorem State.readReg_writeReg (s : State) (r q : Reg) (v : Word) :
    (s.writeReg r v).readReg q = if q = r then v else s.readReg q := by
  simp only [State.readReg, State.writeReg, Vector.getElem_set, Fin.ext_iff, eq_comm]

@[simp] theorem State.readReg_writeReg_self (s : State) (r : Reg) (v : Word) :
    (s.writeReg r v).readReg r = v := by simp [State.readReg_writeReg]

theorem State.readReg_writeReg_of_ne (s : State) (r q : Reg) (v : Word) (h : q ≠ r) :
    (s.writeReg r v).readReg q = s.readReg q := by simp [State.readReg_writeReg, h]

/-- Two states with the same register file read alike. -/
theorem State.readReg_congr {s t : State} (h : t.x = s.x) (r : Reg) : t.readReg r = s.readReg r := by
  simp [State.readReg, h]

/-- Two states with the same tracker have the same ready bits. -/
theorem State.isReady_congr {s t : State} (h : t.ready = s.ready) (r : Reg) : t.isReady r = s.isReady r := by
  simp [State.isReady, h]

/-- What a run of ready-bit writes can do: each register of the list has its new bit, the others keep theirs. -/
theorem setReadyBits_get (f : Reg → Bool) (rs : List Reg) (v : Vector Bool 32) (q : Reg) :
    (setReadyBits v f rs)[q.val] = if q ∈ rs then f q else v[q.val] := by
  induction rs generalizing v with
  | nil => simp [setReadyBits]
  | cons r rs ih =>
    rw [setReadyBits, ih]
    by_cases hq : q ∈ rs
    · simp [hq]
    · by_cases hr : q = r
      · subst hr; simp [hq]
      · have : r.val ≠ q.val := fun h => hr (Fin.ext h.symm)
        simp [hq, hr, Vector.getElem_set_ne, this]

/-- Marking: the destinations are not ready, the rest as before (`40_pipeline_stages.md` R82). -/
theorem State.isReady_markNotReady (s : State) (rs : List Reg) (q : Reg) :
    (s.markNotReady rs).isReady q = if q ∈ rs then false else s.isReady q := by
  simp only [State.isReady, State.markNotReady_ready, setReadyBits_get]

/-- Release: a destination is ready unless Execute or Memory holds a writer of it (`40_pipeline_stages.md` R94). -/
theorem State.isReady_release (s : State) (rs : List Reg) (q : Reg) :
    (s.release rs).isReady q = if q ∈ rs then !(s.lE.writes q || s.lM.writes q) else s.isReady q := by
  simp only [State.isReady, State.release_ready, setReadyBits_get]

/-- A dispatch marks the destinations and no other register. -/
theorem State.isReady_dispatched (s : State) (i : Instr) (q : Reg) :
    (s.dispatched i).isReady q = if q ∈ destsOf i then false else s.isReady q := by
  simp only [State.isReady, State.dispatched_ready, setReadyBits_get]

/-- A commit releases the destinations and no other register. -/
theorem State.isReady_retire (s : State) (i : Instr) (q : Reg) :
    (s.retire i).isReady q = if q ∈ destsOf i then !(s.lE.writes q || s.lM.writes q) else s.isReady q := by
  simp only [State.isReady, State.retire_ready, setReadyBits_get]

end Sys2Proof.Machine
end

