-- ==== Sys2Proof/Laws/Stages.lean ====
section
/-! SUPPORT. What the shared operations and the stage actions can do, once: the provers cite these instead of unfolding
the definitions. -/

namespace Sys2Proof.Machine

/-! ### Sequencing -/

@[simp] theorem andThen_next (s : State) (f : State → Out) : andThen (.next s) f = f s := rfl
@[simp] theorem andThen_fault (c : Fault) (f : State → Out) : andThen (.fault c) f = .fault c := rfl
@[simp] theorem andThen_refused (r : Refusal) (f : State → Out) : andThen (.refused r) f = .refused r := rfl
@[simp] theorem catchFault_next (s0 s : State) : catchFault s0 (.next s) = .next s := rfl
@[simp] theorem catchFault_fault (s0 : State) (c : Fault) : catchFault s0 (.fault c) = .next (takeFault c s0) := rfl

/-- A sequence answers a next state exactly when both of its parts do. -/
theorem andThen_eq_next {o : Out} {f : State → Out} {t : State} :
    andThen o f = .next t ↔ ∃ s, o = .next s ∧ f s = .next t := by
  cases o <;> simp [andThen]

/-- What the catch can answer: the pass's own next state, or the state it began in, faulted. -/
theorem catchFault_eq_next {s0 t : State} {o : Out} (h : catchFault s0 o = .next t) :
    o = .next t ∨ ∃ c, o = .fault c ∧ t = takeFault c s0 := by
  cases o with
  | next s => exact .inl (by simpa [catchFault] using h)
  | fault c => exact .inr ⟨c, rfl, by simpa [catchFault] using h.symm⟩
  | refused r => simp [catchFault] at h

/-! ### The shared stage actions -/

/-- Decode's action on an occupant other than HALT (`40_pipeline_stages.md` R82, R83). -/
theorem dispatch_cases (i : Instr) (s : State) :
    (s.executeHolds = false ∧ s.canDispatch i = true ∧ dispatch i s = .next (s.dispatched i)) ∨
    ((s.executeHolds = true ∨ s.canDispatch i = false) ∧ dispatch i s = .next s.stallDecode) := by
  unfold dispatch
  by_cases h : s.executeHolds = true <;> by_cases h' : s.canDispatch i = true <;> simp [h, h']

/-- Decode's action on HALT (`40_pipeline_stages.md` R82, R84). -/
theorem dispatchHalt_cases (i : Instr) (s : State) :
    (s.executeHolds = false ∧ s.canDispatch i = true ∧ dispatchHalt i s = .next (s.dispatchedHalt i)) ∨
    ((s.executeHolds = true ∨ s.canDispatch i = false) ∧ dispatchHalt i s = .next s.stallDecode) := by
  unfold dispatchHalt
  by_cases h : s.executeHolds = true <;> by_cases h' : s.canDispatch i = true <;> simp [h, h']

/-- HALT is never held back by the readiness test (`40_pipeline_stages.md` R84). -/
@[simp] theorem canDispatch_halt (s : State) : s.canDispatch .halt = true := rfl

/-- The readiness test (`40_pipeline_stages.md` R82). -/
theorem canDispatch_iff (s : State) (i : Instr) :
    s.canDispatch i = true ↔
      (∀ r ∈ srcsOf i, s.isReady r = true) ∧ (isConditionalBranch i = true → s.flagsValid = true) := by
  unfold State.canDispatch
  cases isConditionalBranch i <;> simp

/-- Fetch's action (`40_pipeline_stages.md` R79, R80). -/
theorem fetchAction_cases (s : State) :
    (∃ r, s.lF.empty = true ∧ s.iFetch = some r ∧ fetchAction s = .next (s.fillFetch r).pushFetch) ∨
    (s.lF.empty = true ∧ s.iFetch = none ∧ fetchAction s = .next s) ∨
    (s.lF.empty = false ∧ fetchAction s = .next s.pushFetch) := by
  unfold fetchAction
  cases h : s.lF.empty
  · simp
  · cases h' : s.iFetch <;> simp

/-- Memory's action on a load (`40_pipeline_stages.md` R92). -/
theorem memoryLoad_cases (s : State) :
    (s.dataAddressOk s.lM.memoryAddress = true ∧
      memoryLoad s = .next (s.toWriteback { s.lM with result := s.dataWord s.lM.memoryAddress })) ∨
    (s.dataAddressOk s.lM.memoryAddress = false ∧ memoryLoad s = .fault .dataAddressOutOfRange) := by
  unfold memoryLoad
  obtain ⟨h, h'⟩ | ⟨h, h'⟩ := s.memRead_cases s.lM.memoryAddress <;> simp [h, h', raise]

/-- Memory's action on a store (`40_pipeline_stages.md` R92). -/
theorem memoryStore_cases (s : State) :
    (s.dataAddressOk s.lM.memoryAddress = true ∧
      memoryStore s = .next ((s.putWord s.lM.memoryAddress s.lM.rs1Value).toWriteback s.lM)) ∨
    (s.dataAddressOk s.lM.memoryAddress = false ∧ memoryStore s = .fault .dataAddressOutOfRange) := by
  unfold memoryStore
  obtain ⟨h, h'⟩ | ⟨h, h'⟩ := s.memWrite_cases s.lM.memoryAddress s.lM.rs1Value <;> simp [h, h', raise]

/-- Execute's action on a conditional branch (`40_pipeline_stages.md` R90). -/
theorem executeBranch_cases (taken : Bool) (imm : Word) (s : State) :
    (taken = true ∧ executeBranch taken imm s =
      .next ((s.redirect (branchTarget s.lE.pc imm)).toMemory
        { s.lE with result := branchTarget s.lE.pc imm })) ∨
    (taken = false ∧ executeBranch taken imm s = .next (s.toMemory s.lE)) := by
  cases taken <;> simp [executeBranch, executeJump]

/-! ### What every instruction does in a stage -/

/-- In Fetch every instruction is handled alike. -/
theorem exec_fetch (i : Instr) {s : State} (h : s.phase = .fetch) : exec i s = fetchAction s := by
  cases i <;> simp only [exec, execAdd, execSub, execMul, execDiv, execAnd, execOr, execXor, execMovc, execAddl,
    execSubl, execLoad, execLoadp, execStore, execStorep, execJump, execJalr, execBz, execBnz, execBp, execBnp, execBn,
    execBnn, execHalt, execNop, execCmp, execCml, h]

/-- In Decode every instruction but HALT is handled by its operands alone. -/
theorem exec_decode {i : Instr} (hi : i ≠ .halt) {s : State} (h : s.phase = .decode) :
    exec i s = dispatch i s := by
  cases i <;> simp only [exec, execAdd, execSub, execMul, execDiv, execAnd, execOr, execXor, execMovc, execAddl,
    execSubl, execLoad, execLoadp, execStore, execStorep, execJump, execJalr, execBz, execBnz, execBp, execBnp, execBn,
    execBnn, execNop, execCmp, execCml, h]
  exact absurd rfl hi

theorem exec_decode_halt {s : State} (h : s.phase = .decode) : exec .halt s = dispatchHalt .halt s := by
  simp only [exec, execHalt, h]

theorem exec_execute_halt {s : State} (h : s.phase = .execute) : exec .halt s = executeHalt s := by
  simp only [exec, execHalt, h]

theorem exec_memory_halt {s : State} (h : s.phase = .memory) : exec .halt s = memoryHalt s := by
  simp only [exec, execHalt, h]

theorem exec_writeback_halt {s : State} (h : s.phase = .writeback) : exec .halt s = commitHalt .halt s := by
  simp only [exec, execHalt, h]

/-- In Memory an instruction that makes no access is passed on. -/
theorem exec_memory_pass {i : Instr} (hi : i ≠ .halt) (hm : isMemoryOp i = false) {s : State}
    (h : s.phase = .memory) : exec i s = .next (s.toWriteback s.lM) := by
  cases i <;> simp_all [isMemoryOp, exec, execAdd, execSub, execMul, execDiv, execAnd, execOr, execXor, execMovc,
    execAddl, execSubl, execJump, execJalr, execBz, execBnz, execBp, execBnp, execBn, execBnn, execNop, execCmp,
    execCml, memoryNothing]

/-- In Memory a memory instruction makes its access or faults. -/
theorem exec_memory_access {i : Instr} (hm : isMemoryOp i = true) {s : State} (h : s.phase = .memory) :
    exec i s = if isStore i then memoryStore s else memoryLoad s := by
  cases i <;> simp_all [isMemoryOp, isStore, exec, execLoad, execLoadp, execStore, execStorep]

/-- In Writeback every instruction but HALT writes its destinations, and no other register, and retires. -/
theorem exec_writeback {i : Instr} (hi : i ≠ .halt) {s : State} (h : s.phase = .writeback) :
    ∃ x : Vector Word 32, exec i s = .next (State.retire { s with x := x } i) ∧
      ∀ r : Reg, r ∉ destsOf i → x[r.val] = s.x[r.val] := by
  have one (d r : Reg) (v : Word) (hr : r ≠ d) : (s.x.set d.val v)[r.val] = s.x[r.val] :=
    Vector.getElem_set_ne _ _ (fun he => hr (Fin.ext he.symm))
  have two (d a r : Reg) (u v : Word) (hd : r ≠ d) (ha : r ≠ a) :
      ((s.x.set a.val u).set d.val v)[r.val] = s.x[r.val] := by
    rw [Vector.getElem_set_ne _ _ (fun he => hd (Fin.ext he.symm)),
      Vector.getElem_set_ne _ _ (fun he => ha (Fin.ext he.symm))]
  cases i
  case halt => exact absurd rfl hi
  case loadp d a imm =>
    exact ⟨_, by simp only [exec, execLoadp, h, commitBaseResult, State.writeReg]; rfl, fun r hr =>
      two d a r _ _ (by simp_all [destsOf]) (by simp_all [destsOf])⟩
  case storep a b imm =>
    exact ⟨_, by simp only [exec, execStorep, h, commitBase, State.writeReg]; rfl, fun r hr =>
      one b r _ (by simp_all [destsOf])⟩
  case store | jump | bz | bnz | bp | bnp | bn | bnn | nop | cmp | cml =>
    refine ⟨s.x, Eq.trans (b := commitNothing _ s) ?_ rfl, fun r _ => rfl⟩
    simp only [exec, execStore, execJump, execBz, execBnz, execBp, execBnp, execBn, execBnn, execNop, execCmp, execCml,
      h]
  all_goals
    exact ⟨_, by simp only [exec, execAdd, execSub, execMul, execDiv, execAnd, execOr, execXor, execMovc, execAddl,
      execSubl, execLoad, execJalr, h, commitResult, State.writeReg]; rfl, fun r hr =>
      one _ r _ (by simp_all [destsOf])⟩

end Sys2Proof.Machine
end

