-- ==== Sys2Proof/Laws/Cycle.lean ====
section
/-! SUPPORT. What a pass and a cycle can do, once, and what Execute does with every instruction: the provers cite these
instead of unfolding `exec`, `pass` and `cycle`. -/

namespace Sys2Proof.Machine

/-! ### Execute -/

/-- In Execute an instruction other than HALT faults, writes the condition codes as a producer or as a plain writer,
redirects, or only hands its latch on (`40_pipeline_stages.md` R86, R87, R89). -/
theorem exec_execute {i : Instr} (hi : i ≠ .halt) {s : State} (h : s.phase = .execute) :
    (∃ d a b, i = .div d a b ∧ s.lE.rs2Value = 0#32 ∧ exec i s = .fault .divideByZero) ∨
    (isFlagWriter i = true ∧ isFlagProducer i = true ∧ ∃ r, exec i s = executeProducer r s) ∨
    (isFlagWriter i = true ∧ isFlagProducer i = false ∧ ∃ r, exec i s = executeWriter r s) ∨
    (isFlagWriter i = false ∧ isFlagProducer i = false ∧ ∃ t r, exec i s = executeJump t r s) ∨
    (isFlagWriter i = false ∧ isFlagProducer i = false ∧
      ∃ addr base, exec i s = .next (s.toMemory { s.lE with memoryAddress := addr, baseNext := base })) := by
  have branch (taken : Bool) (imm : Word) : (∃ t r, executeBranch taken imm s = executeJump t r s) ∨
      ∃ addr base, executeBranch taken imm s =
        .next (s.toMemory { s.lE with memoryAddress := addr, baseNext := base }) := by
    cases taken
    · exact .inr ⟨s.lE.memoryAddress, s.lE.baseNext, rfl⟩
    · exact .inl ⟨_, _, rfl⟩
  cases i
  case halt => exact absurd rfl hi
  case div d a b =>
    by_cases hz : s.lE.rs2Value = 0#32
    · exact .inl ⟨d, a, b, rfl, hz, by simp only [exec, execDiv, h, hz, if_true, raise]⟩
    · exact .inr (.inl ⟨rfl, rfl, _, by simp only [exec, execDiv, h, hz, if_false]; rfl⟩)
  case add | sub | mul | addl | subl | cmp | cml =>
    exact .inr (.inl ⟨rfl, rfl, _, by
      simp only [exec, execAdd, execSub, execMul, execAddl, execSubl, execCmp, execCml, h]; rfl⟩)
  case and | or | xor | movc =>
    exact .inr (.inr (.inl ⟨rfl, rfl, _, by simp only [exec, execAnd, execOr, execXor, execMovc, h]; rfl⟩))
  case jump | jalr =>
    exact .inr (.inr (.inr (.inl ⟨rfl, rfl, _, _, by simp only [exec, execJump, execJalr, h]; rfl⟩)))
  case bz imm | bnz imm | bp imm | bnp imm | bn imm | bnn imm =>
    simp only [exec, execBz, execBnz, execBp, execBnp, execBn, execBnn, h]
    exact .inr (.inr (.inr ((branch _ imm).imp (⟨rfl, rfl, ·⟩) (⟨rfl, rfl, ·⟩))))
  case loadp | storep =>
    exact .inr (.inr (.inr (.inr ⟨rfl, rfl, _, _, by
      simp only [exec, execLoadp, execStorep, h, executeAddressInc]; rfl⟩)))
  case load d a imm =>
    refine .inr (.inr (.inr (.inr ⟨rfl, rfl, effectiveAddress s.lE.rs1Value imm, s.lE.baseNext, ?_⟩)))
    simp only [exec, execLoad, h]
    rfl
  case store a b imm =>
    refine .inr (.inr (.inr (.inr ⟨rfl, rfl, effectiveAddress s.lE.rs2Value imm, s.lE.baseNext, ?_⟩)))
    simp only [exec, execStore, h]
    rfl
  case nop =>
    refine .inr (.inr (.inr (.inr ⟨rfl, rfl, s.lE.memoryAddress, s.lE.baseNext, ?_⟩)))
    simp only [exec, execNop, h]
    rfl

/-! ### A stage function, a pass, a cycle -/

@[simp] theorem runStage_none (st : Stage) (s : State) : runStage st none s = .next s := rfl

/-- What a stage function leaves when it has an occupant. -/
theorem runStage_some {st : Stage} {i : Instr} {s t : State} :
    runStage st (some i) s = .next t ↔ ∃ u, exec i (s.during st) = .next u ∧ t = u.during .fetch := by
  simp only [runStage, andThen_eq_next, Host.Outcome.next.injEq, eq_comm (b := t)]

/-- The guard every stage has (`40_pipeline_stages.md` R74). -/
theorem active_eq_some {l : Latch} {i : Instr} :
    l.active = some i ↔ l.empty = false ∧ l.interrupted = false ∧ l.instr = i := by
  cases h : l.empty <;> cases h' : l.interrupted <;> simp [Latch.active, h, h']

theorem active_eq_none {l : Latch} : l.active = none ↔ l.empty = true ∨ l.interrupted = true := by
  cases h : l.empty <;> cases h' : l.interrupted <;> simp [Latch.active, h, h']

@[simp] theorem active_bubble : Latch.bubble.active = none := rfl

/-- What a pass that raises no fault has done (`40_pipeline_stages.md` R72). -/
theorem pass_eq_next {s t : State} :
    pass s = .next t ↔ ∃ s1, writebackStage s = .next s1 ∧
      ((s1.runState = .halted ∧ t = s1) ∨
        (s1.runState ≠ .halted ∧ ∃ s2 s3 s4 s5, memoryStage s1 = .next s2 ∧ executeStage s2 = .next s3 ∧
          decodeStage s3 = .next s4 ∧ fetchStage s4 = .next s5 ∧ t = s5.tick)) := by
  unfold pass
  simp only [andThen_eq_next]
  refine exists_congr fun s1 => and_congr_right fun _ => ?_
  by_cases h : s1.runState = .halted
  · simp [h, eq_comm]
  · simp only [h, if_false, false_and, false_or, ne_eq, not_false_eq_true, true_and, restOfPass, andThen_eq_next,
      Host.Outcome.next.injEq]
    constructor
    · rintro ⟨s2, h2, s3, h3, s4, h4, s5, h5, rfl⟩
      exact ⟨s2, s3, s4, s5, h2, h3, h4, h5, rfl⟩
    · rintro ⟨s2, s3, s4, s5, h2, h3, h4, h5, rfl⟩
      exact ⟨s2, h2, s3, h3, s4, h4, s5, h5, rfl⟩

/-- What a step can do (`40_pipeline_stages.md` R72, `60_exceptions.md` R137, R140, R142): nothing in a terminal state,
one of the two stops at the boundary, or a pass, completed or undone by a fault. -/
theorem step_cases {s t : State} (h : step s = .next t) :
    (s.runState ≠ .running ∧ t = s) ∨
    (s.runState = .running ∧ s.inputs.cycleLimit < s.clk ∧ t = { s with runState := .budgetExhausted }) ∨
    (s.runState = .running ∧ s.clk ≤ s.inputs.cycleLimit ∧ s.retireLimitReached = true ∧
      t = { s with runState := .retireLimit }) ∨
    (s.WillPass ∧ (pass s = .next t ∨ ∃ c, pass s = .fault c ∧ t = takeFault c s)) := by
  unfold step cycle at h
  split at h
  next hr => exact .inl ⟨hr, by simpa using h.symm⟩
  next hr =>
  rw [ne_eq, Decidable.not_not] at hr
  split at h
  next hc => exact .inr (.inl ⟨hr, hc, by simpa using h.symm⟩)
  next hc =>
  rw [Nat.not_lt] at hc
  split at h
  next hl => exact .inr (.inr (.inl ⟨hr, hc, hl, by simpa using h.symm⟩))
  next hl =>
  exact .inr (.inr (.inr ⟨⟨hr, hc, by simpa using hl⟩, catchFault_eq_next h⟩))

end Sys2Proof.Machine
end

