-- ==== Sys2Proof/Laws/Encoding.lean ====
section
/-! SUPPORT. The word form of `30_encoding.md` R58 as numbers: what each field of a word is, and what `encode` writes
into it. State goals over these, not over `decodeRecord (encodeRecord r)`: there the kernel may try to count to
2^59. -/

namespace Sys2Proof

@[simp] theorem Opcode.ofNumber_number (op : Opcode) : Opcode.ofNumber op.number = some op := by cases op <;> rfl

theorem Opcode.number_le (op : Opcode) : op.number ≤ 25 := by cases op <;> decide

theorem Opcode.ofNumber_eq_some {n : Nat} {op : Opcode} : Opcode.ofNumber n = some op ↔ op.number = n := by
  constructor
  · intro h
    match n, h with
    | 0, h | 1, h | 2, h | 3, h | 4, h | 5, h | 6, h | 7, h | 8, h | 9, h | 10, h | 11, h | 12, h | 13, h | 14, h
    | 15, h | 16, h | 17, h | 18, h | 19, h | 20, h | 21, h | 22, h | 23, h | 24, h | 25, h =>
      cases h; rfl
    | _ + 26, h => cases h
  · rintro rfl
    exact op.ofNumber_number

theorem Opcode.ofNumber_eq_none {n : Nat} : Opcode.ofNumber n = none ↔ 25 < n := by
  constructor
  · intro h
    match n, h with
    | 0, h | 1, h | 2, h | 3, h | 4, h | 5, h | 6, h | 7, h | 8, h | 9, h | 10, h | 11, h | 12, h | 13, h | 14, h
    | 15, h | 16, h | 17, h | 18, h | 19, h | 20, h | 21, h | 22, h | 23, h | 24, h | 25, h => cases h
    | n + 26, _ => omega
  · intro h
    obtain ⟨m, rfl⟩ := Nat.exists_eq_add_of_le' h
    rfl

/-- A field of a word is a division and a remainder. -/
theorem field_toNat (w : BitVec 64) (lo n : Nat) : (w.extractLsb' lo n).toNat = w.toNat / 2 ^ lo % 2 ^ n := by
  rw [BitVec.extractLsb'_toNat, Nat.shiftRight_eq_div_pow]

theorem regField_val (w : BitVec 64) (lo : Nat) : (regField w lo).val = w.toNat / 2 ^ lo % 2 ^ 5 := by
  rw [regField, BitVec.val_toFin, field_toNat]

/-- What the decoder reads from a word whose opcode field names an opcode. -/
theorem decodeRecord_eq {w : BitVec 64} {op : Opcode} (h : (w.extractLsb' 59 5).toNat = op.number) :
    decodeRecord w = .ok ⟨op, regField w 54, regField w 49, regField w 44, w.extractLsb' 0 32⟩ := by
  unfold decodeRecord
  rw [h, op.ofNumber_number]

/-- The number a sum of fields in their places is, cut back into the fields. -/
theorem fields_of_sum {o d a b m : Nat} (ho : o ≤ 25) (hd : d < 32) (ha : a < 32) (hb : b < 32) (hm : m < 2 ^ 32) :
    (o * 2 ^ 59 + d * 2 ^ 54 + a * 2 ^ 49 + b * 2 ^ 44 + m) / 2 ^ 59 % 2 ^ 5 = o ∧
    (o * 2 ^ 59 + d * 2 ^ 54 + a * 2 ^ 49 + b * 2 ^ 44 + m) / 2 ^ 54 % 2 ^ 5 = d ∧
    (o * 2 ^ 59 + d * 2 ^ 54 + a * 2 ^ 49 + b * 2 ^ 44 + m) / 2 ^ 49 % 2 ^ 5 = a ∧
    (o * 2 ^ 59 + d * 2 ^ 54 + a * 2 ^ 49 + b * 2 ^ 44 + m) / 2 ^ 44 % 2 ^ 5 = b ∧
    (o * 2 ^ 59 + d * 2 ^ 54 + a * 2 ^ 49 + b * 2 ^ 44 + m) % 2 ^ 32 = m := by
  omega

end Sys2Proof
end

