-- ==== Sys2Proof/Laws/PerInstr.lean ====
section
/-! SUPPORT. What holds of every instruction, one lemma a constructor. -/

/-- The canonical record of an instruction stands for that instruction (`30_encoding.md` R59 to R67, R71). -/
def Sys2Proof.Laws.CanonicalRecord.Statement (i : Sys2Proof.Instr) : Prop :=
  i.toRecord.toInstr = i

theorem Sys2Proof.Laws.CanonicalRecord.add (rd rs1 rs2 : Sys2Proof.Reg) :
    Sys2Proof.Laws.CanonicalRecord.Statement (.add rd rs1 rs2) := rfl

theorem Sys2Proof.Laws.CanonicalRecord.sub (rd rs1 rs2 : Sys2Proof.Reg) :
    Sys2Proof.Laws.CanonicalRecord.Statement (.sub rd rs1 rs2) := rfl

theorem Sys2Proof.Laws.CanonicalRecord.mul (rd rs1 rs2 : Sys2Proof.Reg) :
    Sys2Proof.Laws.CanonicalRecord.Statement (.mul rd rs1 rs2) := rfl

theorem Sys2Proof.Laws.CanonicalRecord.div (rd rs1 rs2 : Sys2Proof.Reg) :
    Sys2Proof.Laws.CanonicalRecord.Statement (.div rd rs1 rs2) := rfl

theorem Sys2Proof.Laws.CanonicalRecord.and (rd rs1 rs2 : Sys2Proof.Reg) :
    Sys2Proof.Laws.CanonicalRecord.Statement (.and rd rs1 rs2) := rfl

theorem Sys2Proof.Laws.CanonicalRecord.or (rd rs1 rs2 : Sys2Proof.Reg) :
    Sys2Proof.Laws.CanonicalRecord.Statement (.or rd rs1 rs2) := rfl

theorem Sys2Proof.Laws.CanonicalRecord.xor (rd rs1 rs2 : Sys2Proof.Reg) :
    Sys2Proof.Laws.CanonicalRecord.Statement (.xor rd rs1 rs2) := rfl

theorem Sys2Proof.Laws.CanonicalRecord.movc (rd : Sys2Proof.Reg) (imm : Sys2Proof.Word) :
    Sys2Proof.Laws.CanonicalRecord.Statement (.movc rd imm) := rfl

theorem Sys2Proof.Laws.CanonicalRecord.addl (rd rs1 : Sys2Proof.Reg) (imm : Sys2Proof.Word) :
    Sys2Proof.Laws.CanonicalRecord.Statement (.addl rd rs1 imm) := rfl

theorem Sys2Proof.Laws.CanonicalRecord.subl (rd rs1 : Sys2Proof.Reg) (imm : Sys2Proof.Word) :
    Sys2Proof.Laws.CanonicalRecord.Statement (.subl rd rs1 imm) := rfl

theorem Sys2Proof.Laws.CanonicalRecord.load (rd rs1 : Sys2Proof.Reg) (imm : Sys2Proof.Word) :
    Sys2Proof.Laws.CanonicalRecord.Statement (.load rd rs1 imm) := rfl

theorem Sys2Proof.Laws.CanonicalRecord.loadp (rd rs1 : Sys2Proof.Reg) (imm : Sys2Proof.Word) :
    Sys2Proof.Laws.CanonicalRecord.Statement (.loadp rd rs1 imm) := rfl

theorem Sys2Proof.Laws.CanonicalRecord.store (rs1 rs2 : Sys2Proof.Reg) (imm : Sys2Proof.Word) :
    Sys2Proof.Laws.CanonicalRecord.Statement (.store rs1 rs2 imm) := rfl

theorem Sys2Proof.Laws.CanonicalRecord.storep (rs1 rs2 : Sys2Proof.Reg) (imm : Sys2Proof.Word) :
    Sys2Proof.Laws.CanonicalRecord.Statement (.storep rs1 rs2 imm) := rfl

theorem Sys2Proof.Laws.CanonicalRecord.jump (rs1 : Sys2Proof.Reg) (imm : Sys2Proof.Word) :
    Sys2Proof.Laws.CanonicalRecord.Statement (.jump rs1 imm) := rfl

theorem Sys2Proof.Laws.CanonicalRecord.jalr (rd rs1 : Sys2Proof.Reg) (imm : Sys2Proof.Word) :
    Sys2Proof.Laws.CanonicalRecord.Statement (.jalr rd rs1 imm) := rfl

theorem Sys2Proof.Laws.CanonicalRecord.bz (imm : Sys2Proof.Word) :
    Sys2Proof.Laws.CanonicalRecord.Statement (.bz imm) := rfl

theorem Sys2Proof.Laws.CanonicalRecord.bnz (imm : Sys2Proof.Word) :
    Sys2Proof.Laws.CanonicalRecord.Statement (.bnz imm) := rfl

theorem Sys2Proof.Laws.CanonicalRecord.bp (imm : Sys2Proof.Word) :
    Sys2Proof.Laws.CanonicalRecord.Statement (.bp imm) := rfl

theorem Sys2Proof.Laws.CanonicalRecord.bnp (imm : Sys2Proof.Word) :
    Sys2Proof.Laws.CanonicalRecord.Statement (.bnp imm) := rfl

theorem Sys2Proof.Laws.CanonicalRecord.bn (imm : Sys2Proof.Word) :
    Sys2Proof.Laws.CanonicalRecord.Statement (.bn imm) := rfl

theorem Sys2Proof.Laws.CanonicalRecord.bnn (imm : Sys2Proof.Word) :
    Sys2Proof.Laws.CanonicalRecord.Statement (.bnn imm) := rfl

theorem Sys2Proof.Laws.CanonicalRecord.halt :
    Sys2Proof.Laws.CanonicalRecord.Statement .halt := rfl

theorem Sys2Proof.Laws.CanonicalRecord.nop :
    Sys2Proof.Laws.CanonicalRecord.Statement .nop := rfl

theorem Sys2Proof.Laws.CanonicalRecord.cmp (rs1 rs2 : Sys2Proof.Reg) :
    Sys2Proof.Laws.CanonicalRecord.Statement (.cmp rs1 rs2) := rfl

theorem Sys2Proof.Laws.CanonicalRecord.cml (rs1 : Sys2Proof.Reg) (imm : Sys2Proof.Word) :
    Sys2Proof.Laws.CanonicalRecord.Statement (.cml rs1 imm) := rfl
end

