-- ==== Sys2Proof/Tests/Slice0.lean ====
section
/-! SUPPORT. Tests of the model: the well-formedness smoke, the words of every constructor, one stage action of every
instruction against a vector of `95_test_vectors.md`, and a state that meets the hypotheses of each obligation. -/

namespace Sys2Proof.Machine.Tests

open Sys2Proof Sys2Proof.Machine

/-! ### Well-formedness: one ill-formed term for each check (`70_reset_and_hazards.md` R151) -/

/-- The inputs of a machine with one HALT. -/
def goodInputs : RawInputs := ⟨[⟨22, 0, 0, 0, 0#32⟩], 4000#32, 4096, 100, none⟩

theorem test_good_inputs_pass : goodInputs.wellFormed = true := by decide

theorem test_empty_program_refused :
    { goodInputs with program := [] }.programNonempty = false ∧
      construct { goodInputs with program := [] } = none := by decide

theorem test_opcode_26_refused :
    { goodInputs with program := [⟨26, 0, 0, 0, 0#32⟩] }.recordsWellFormed = false ∧
      construct { goodInputs with program := [⟨26, 0, 0, 0, 0#32⟩] } = none := by decide

theorem test_register_32_refused :
    (⟨0, 32, 0, 0, 0#32⟩ : RawRecord).wellFormed = false ∧ (⟨0, 0, 32, 0, 0#32⟩ : RawRecord).wellFormed = false ∧
      (⟨0, 0, 0, 32, 0#32⟩ : RawRecord).wellFormed = false ∧
      (⟨25, 31, 31, 31, 0#32⟩ : RawRecord).wellFormed = true := by decide

theorem test_misaligned_code_base_refused :
    { goodInputs with codeBase := 4002#32 }.codeBaseAligned = false ∧
      construct { goodInputs with codeBase := 4002#32 } = none := by decide

theorem test_code_past_the_top_refused :
    { goodInputs with codeBase := 0x7FFFFFFC#32 }.codeFits = false ∧
      construct { goodInputs with codeBase := 0x7FFFFFFC#32 } = none ∧
      { goodInputs with codeBase := 0x7FFFFFF8#32 }.codeFits = true := by decide

theorem test_dmem_size_refused :
    { goodInputs with dmemWords := 0 }.dmemSized = false ∧
      { goodInputs with dmemWords := 2147483649 }.dmemSized = false ∧
      { goodInputs with dmemWords := 2147483648 }.dmemSized = true ∧
      construct { goodInputs with dmemWords := 0 } = none := by decide

/-! ### Decoding: opcode, rd, rs1, rs2, reserved, immediate, written out field by field (`30_encoding.md` R58) -/

theorem test_decode_add :
    decode (0b00000#5 ++ 0b00011#5 ++ 0b00001#5 ++ 0b00010#5 ++ 0b101#12 ++ 9#32) = .ok (.add 3 1 2) := by decide

theorem test_decode_sub :
    decode (0b00001#5 ++ 0b00011#5 ++ 0b00001#5 ++ 0b00010#5 ++ 0b101#12 ++ 9#32) = .ok (.sub 3 1 2) := by decide

theorem test_decode_mul :
    decode (0b00010#5 ++ 0b00011#5 ++ 0b00001#5 ++ 0b00010#5 ++ 0b101#12 ++ 9#32) = .ok (.mul 3 1 2) := by decide

theorem test_decode_div :
    decode (0b00011#5 ++ 0b00011#5 ++ 0b00001#5 ++ 0b00010#5 ++ 0b101#12 ++ 9#32) = .ok (.div 3 1 2) := by decide

theorem test_decode_and :
    decode (0b00100#5 ++ 0b00011#5 ++ 0b00001#5 ++ 0b00010#5 ++ 0b101#12 ++ 9#32) = .ok (.and 3 1 2) := by decide

theorem test_decode_or :
    decode (0b00101#5 ++ 0b00011#5 ++ 0b00001#5 ++ 0b00010#5 ++ 0b101#12 ++ 9#32) = .ok (.or 3 1 2) := by decide

theorem test_decode_xor :
    decode (0b00110#5 ++ 0b00011#5 ++ 0b00001#5 ++ 0b00010#5 ++ 0b101#12 ++ 9#32) = .ok (.xor 3 1 2) := by decide

theorem test_decode_movc :
    decode (0b00111#5 ++ 0b00011#5 ++ 0b00001#5 ++ 0b00010#5 ++ 0b101#12 ++ 9#32) = .ok (.movc 3 9#32) := by decide

theorem test_decode_addl :
    decode (0b01000#5 ++ 0b00011#5 ++ 0b00001#5 ++ 0b00010#5 ++ 0b101#12 ++ 9#32) = .ok (.addl 3 1 9#32) := by decide

theorem test_decode_subl :
    decode (0b01001#5 ++ 0b00011#5 ++ 0b00001#5 ++ 0b00010#5 ++ 0b101#12 ++ 9#32) = .ok (.subl 3 1 9#32) := by decide

theorem test_decode_load :
    decode (0b01010#5 ++ 0b00011#5 ++ 0b00001#5 ++ 0b00010#5 ++ 0b101#12 ++ 9#32) = .ok (.load 3 1 9#32) := by decide

theorem test_decode_loadp :
    decode (0b01011#5 ++ 0b00011#5 ++ 0b00001#5 ++ 0b00010#5 ++ 0b101#12 ++ 9#32) = .ok (.loadp 3 1 9#32) := by decide

theorem test_decode_store :
    decode (0b01100#5 ++ 0b00011#5 ++ 0b00001#5 ++ 0b00010#5 ++ 0b101#12 ++ 9#32) = .ok (.store 1 2 9#32) := by decide

theorem test_decode_storep :
    decode (0b01101#5 ++ 0b00011#5 ++ 0b00001#5 ++ 0b00010#5 ++ 0b101#12 ++ 9#32) = .ok (.storep 1 2 9#32) := by decide

theorem test_decode_jump :
    decode (0b01110#5 ++ 0b00011#5 ++ 0b00001#5 ++ 0b00010#5 ++ 0b101#12 ++ 9#32) = .ok (.jump 1 9#32) := by decide

theorem test_decode_jalr :
    decode (0b01111#5 ++ 0b00011#5 ++ 0b00001#5 ++ 0b00010#5 ++ 0b101#12 ++ 9#32) = .ok (.jalr 3 1 9#32) := by decide

theorem test_decode_bz :
    decode (0b10000#5 ++ 0b00011#5 ++ 0b00001#5 ++ 0b00010#5 ++ 0b101#12 ++ 9#32) = .ok (.bz 9#32) := by decide

theorem test_decode_bnz :
    decode (0b10001#5 ++ 0b00011#5 ++ 0b00001#5 ++ 0b00010#5 ++ 0b101#12 ++ 9#32) = .ok (.bnz 9#32) := by decide

theorem test_decode_bp :
    decode (0b10010#5 ++ 0b00011#5 ++ 0b00001#5 ++ 0b00010#5 ++ 0b101#12 ++ 9#32) = .ok (.bp 9#32) := by decide

theorem test_decode_bnp :
    decode (0b10011#5 ++ 0b00011#5 ++ 0b00001#5 ++ 0b00010#5 ++ 0b101#12 ++ 9#32) = .ok (.bnp 9#32) := by decide

theorem test_decode_bn :
    decode (0b10100#5 ++ 0b00011#5 ++ 0b00001#5 ++ 0b00010#5 ++ 0b101#12 ++ 9#32) = .ok (.bn 9#32) := by decide

theorem test_decode_bnn :
    decode (0b10101#5 ++ 0b00011#5 ++ 0b00001#5 ++ 0b00010#5 ++ 0b101#12 ++ 9#32) = .ok (.bnn 9#32) := by decide

theorem test_decode_halt :
    decode (0b10110#5 ++ 0b00011#5 ++ 0b00001#5 ++ 0b00010#5 ++ 0b101#12 ++ 9#32) = .ok (.halt) := by decide

theorem test_decode_nop :
    decode (0b10111#5 ++ 0b00011#5 ++ 0b00001#5 ++ 0b00010#5 ++ 0b101#12 ++ 9#32) = .ok (.nop) := by decide

theorem test_decode_cmp :
    decode (0b11000#5 ++ 0b00011#5 ++ 0b00001#5 ++ 0b00010#5 ++ 0b101#12 ++ 9#32) = .ok (.cmp 1 2) := by decide

theorem test_decode_cml :
    decode (0b11001#5 ++ 0b00011#5 ++ 0b00001#5 ++ 0b00010#5 ++ 0b101#12 ++ 9#32) = .ok (.cml 1 9#32) := by decide

theorem test_decode_reserved_opcodes :
    (List.range 6).all (fun k => decode (BitVec.ofNat 64 ((26 + k) * 2 ^ 59)) = .error (.reservedOpcode (26 + k))) =
      true := by decide

/-! Words of the spec's own vectors (`95_test_vectors.md` part 2), and the words `encode` writes for them. -/

theorem test_words_of_the_vectors :
    decode 0x00C2200000000000#64 = .ok (.add 3 1 2) ∧ decode 0x08C4100000000000#64 = .ok (.sub 3 2 1) ∧
    decode 0x10C2200000000000#64 = .ok (.mul 3 1 2) ∧ decode 0x18C2200000000000#64 = .ok (.div 3 1 2) ∧
    decode 0x20C2200000000000#64 = .ok (.and 3 1 2) ∧ decode 0x28C2100000000000#64 = .ok (.or 3 1 1) ∧
    decode 0x30C2100000000000#64 = .ok (.xor 3 1 1) ∧ decode 0x39000000FFFFFFFD#64 = .ok (.movc 4 (wrap32 (-3))) ∧
    decode 0x3FC0000080000000#64 = .ok (.movc 31 (wrap32 (-2147483648))) ∧
    decode 0x4082000000000001#64 = .ok (.addl 2 1 1#32) ∧ decode 0x4842000000000005#64 = .ok (.subl 1 1 5#32) := by
  decide

theorem test_words_of_the_vectors_memory_control :
    decode 0x50C40000FFFFFFF6#64 = .ok (.load 3 2 (wrap32 (-10))) ∧
    decode 0x58C4000000000002#64 = .ok (.loadp 3 2 2#32) ∧ decode 0x6002200000000003#64 = .ok (.store 1 2 3#32) ∧
    decode 0x6804200000000000#64 = .ok (.storep 2 2 0#32) ∧ decode 0x7002000000000003#64 = .ok (.jump 1 3#32) ∧
    decode 0x794200000000000C#64 = .ok (.jalr 5 1 12#32) ∧ decode 0x8000000000000008#64 = .ok (.bz 8#32) ∧
    decode 0x8800000000000008#64 = .ok (.bnz 8#32) ∧ decode 0x9000000000000008#64 = .ok (.bp 8#32) ∧
    decode 0x9800000000000008#64 = .ok (.bnp 8#32) ∧ decode 0xA000000000000008#64 = .ok (.bn 8#32) ∧
    decode 0xA800000000000008#64 = .ok (.bnn 8#32) ∧ decode 0xB000000000000000#64 = .ok .halt ∧
    decode 0xB800000000000000#64 = .ok .nop ∧ decode 0xC002200000000000#64 = .ok (.cmp 1 2) ∧
    decode 0xC802000000000005#64 = .ok (.cml 1 5#32) := by decide

theorem test_words_encode_writes :
    encode (.add 3 1 2) = 0x00C2200000000000#64 ∧ encode (.movc 31 (wrap32 (-2147483648))) = 0x3FC0000080000000#64 ∧
    encode (.load 3 2 (wrap32 (-10))) = 0x50C40000FFFFFFF6#64 ∧ encode (.storep 2 2 0#32) = 0x6804200000000000#64 ∧
    encode (.jalr 5 1 12#32) = 0x794200000000000C#64 ∧ encode (.bnn 8#32) = 0xA800000000000008#64 ∧
    encode .halt = 0xB000000000000000#64 ∧ encode (.cml 1 5#32) = 0xC802000000000005#64 := by decide

/-! ### One stage action of every instruction (`95_test_vectors.md` parts 2 and 3) -/

/-- Reset, with an instruction at 4000 in Execute that has read `a` and `b`. -/
def inExecute (a b : Int) : State :=
  { State.reset with
    phase := .execute, pc := 4008#32
    lE := { Latch.bubble with pc := 4000#32, rs1Value := wrap32 a, rs2Value := wrap32 b, empty := false } }

/-- The same with the condition codes `z`, `n`, `p`. -/
def branching (z n p : Bool) : State := { inExecute 0 0 with z := z, n := n, p := p }

/-- Reset, with `DMEM[12] = 55` and `DMEM[7] = 3`, and an instruction in Memory with address `addr`. -/
def inMemory (addr v : Int) : State :=
  { State.reset with
    phase := .memory, dmem := [(7, 3#32), (12, 55#32)]
    lM := { Latch.bubble with memoryAddress := wrap32 addr, rs1Value := wrap32 v, empty := false } }

/-- Something read off the next state. -/
def after {α : Type} (o : Out) (f : State → α) : Option α :=
  match o with
  | .next s => some (f s)
  | _ => none

/-- The fault raised, if one is. -/
def faultOf (o : Out) : Option Fault :=
  match o with
  | .fault c => some c
  | _ => none

/-- The result in `L_M` and the condition codes. -/
def resultAndCodes (s : State) : Int × Bool × Bool × Bool := (s.lM.result.toInt, s.z, s.n, s.p)

/-- `PC` and whether Fetch is held for the pass. -/
def pcAndSkip (s : State) : Int × Bool := (s.pc.toInt, s.fSkip)

theorem test_add_wraps_to_zero :
    after (exec (.add 3 1 2) (inExecute (-2147483648) (-2147483648))) resultAndCodes = some (0, true, false, false) := by decide

theorem test_add_signs :
    after (exec (.add 3 1 2) (inExecute 7 (-9))) resultAndCodes = some (-2, false, true, false) := by decide

theorem test_sub_wraps :
    after (exec (.sub 3 1 2) (inExecute (-2147483648) 1)) resultAndCodes = some (2147483647, false, false, true) := by decide

theorem test_sub_order :
    after (exec (.sub 3 1 2) (inExecute 3 8)) resultAndCodes = some (-5, false, true, false) := by decide

theorem test_mul_low_word :
    after (exec (.mul 3 1 2) (inExecute 46341 46341)) resultAndCodes = some (-2147479015, false, true, false) := by decide

theorem test_mul_signs :
    after (exec (.mul 3 1 2) (inExecute (-6) 7)) resultAndCodes = some (-42, false, true, false) := by decide

theorem test_div_rounds_to_zero :
    after (exec (.div 3 1 2) (inExecute (-7) 2)) resultAndCodes = some (-3, false, true, false) := by decide

theorem test_div_corner :
    after (exec (.div 3 1 2) (inExecute (-2147483648) (-1))) resultAndCodes = some (-2147483648, false, true, false) := by decide

theorem test_and :
    after (exec (.and 3 1 2) (inExecute 12 10)) resultAndCodes = some (8, false, false, true) := by decide

theorem test_or :
    after (exec (.or 3 1 2) (inExecute 12 10)) resultAndCodes = some (14, false, false, true) := by decide

theorem test_xor :
    after (exec (.xor 3 1 2) (inExecute (-1) 1)) resultAndCodes = some (-2, false, true, false) := by decide

theorem test_movc :
    after (exec (.movc 4 (wrap32 (-3))) (inExecute 9 9)) resultAndCodes = some (-3, false, true, false) := by decide

theorem test_addl :
    after (exec (.addl 2 1 (wrap32 (-1))) (inExecute 0 9)) resultAndCodes = some (-1, false, true, false) := by decide

theorem test_subl :
    after (exec (.subl 2 1 (wrap32 (-2147483648))) (inExecute 0 9)) resultAndCodes = some (-2147483648, false, true, false) := by decide

theorem test_cmp :
    after (exec (.cmp 1 2) (inExecute 3 8)) resultAndCodes = some (-5, false, true, false) := by decide

theorem test_cml :
    after (exec (.cml 1 (wrap32 (-1))) (inExecute 2147483647 9)) resultAndCodes = some (-2147483648, false, true, false) := by decide

theorem test_div_by_zero : faultOf (exec (.div 3 1 2) (inExecute 7 0)) = some .divideByZero := by decide

theorem test_load_address :
    after (exec (.load 3 2 (wrap32 (-10))) (inExecute 10 99)) (fun s => s.lM.memoryAddress) = some 0#32 := by decide

theorem test_load_reads :
    after (exec (.load 3 2 2#32) (inMemory 12 9)) (fun s => (s.lW.result, s.dmem)) =
      some (55#32, [(7, 3#32), (12, 55#32)]) := by decide

theorem test_loadp_address_and_base :
    after (exec (.loadp 3 2 (wrap32 (-2147483644))) (inExecute 2147483644 99)) (fun s =>
      (s.lM.memoryAddress.toInt, s.lM.baseNext.toInt)) = some (0, -2147483648) := by decide

theorem test_loadp_same_register_keeps_the_loaded_word :
    after (exec (.loadp 2 2 0#32) { State.reset with
      phase := .writeback, lW := { Latch.bubble with result := 99#32, baseNext := 14#32, empty := false } })
      (fun s => s.readReg 2) = some 99#32 := by decide

theorem test_store_address :
    after (exec (.store 1 2 3#32) (inExecute (-5) 20)) (fun s => (s.lM.memoryAddress, s.lM.baseNext)) =
      some (23#32, 0#32) := by decide

theorem test_store_of_zero_removes_the_entry :
    after (exec (.store 1 2 0#32) (inMemory 7 0)) (fun s => s.dmem) = some [(12, 55#32)] := by decide

theorem test_storep_address_and_base :
    after (exec (.storep 2 2 0#32) (inExecute 4092 4092)) (fun s => (s.lM.memoryAddress, s.lM.baseNext)) =
      some (4092#32, 4096#32) := by decide

theorem test_storep_writes :
    after (exec (.storep 1 2 0#32) (inMemory 4095 (-5))) (fun s => Memory.read s.dmem 4095) =
      some 0xFFFFFFFB#32 := by decide

theorem test_memory_faults :
    faultOf (exec (.load 3 2 0#32) (inMemory 4096 0)) = some .dataAddressOutOfRange ∧
    faultOf (exec (.loadp 3 2 0#32) (inMemory (-1) 0)) = some .dataAddressOutOfRange ∧
    faultOf (exec (.store 1 2 0#32) (inMemory (-1) 9)) = some .dataAddressOutOfRange ∧
    faultOf (exec (.storep 1 2 0#32) (inMemory 4096 7)) = some .dataAddressOutOfRange := by decide

theorem test_jump_clears_the_low_bits :
    after (exec (.jump 1 3#32) (inExecute 4008 99)) pcAndSkip = some (4008, true) := by decide

theorem test_jalr_links :
    after (exec (.jalr 5 1 12#32) (inExecute 4000 99)) (fun s => (s.pc, s.lM.result, s.lD)) =
      some (4012#32, 4004#32, Latch.bubble) := by decide

theorem test_bz :
    after (exec (.bz 8#32) (branching true false false)) pcAndSkip = some (4008, true) ∧
    after (exec (.bz (wrap32 (-4))) (branching true false false)) pcAndSkip = some (3996, true) ∧
    after (exec (.bz (wrap32 (-4))) (branching false false true)) pcAndSkip = some (4008, false) := by decide

theorem test_bnz :
    after (exec (.bnz 8#32) (branching false true false)) pcAndSkip = some (4008, true) ∧
    after (exec (.bnz (wrap32 (-4))) (branching false true false)) pcAndSkip = some (3996, true) ∧
    after (exec (.bnz (wrap32 (-4))) (branching true false false)) pcAndSkip = some (4008, false) := by decide

theorem test_bp :
    after (exec (.bp 8#32) (branching false false true)) pcAndSkip = some (4008, true) ∧
    after (exec (.bp (wrap32 (-4))) (branching false false true)) pcAndSkip = some (3996, true) ∧
    after (exec (.bp (wrap32 (-4))) (branching true false false)) pcAndSkip = some (4008, false) := by decide

theorem test_bnp :
    after (exec (.bnp 8#32) (branching false true false)) pcAndSkip = some (4008, true) ∧
    after (exec (.bnp (wrap32 (-4))) (branching false true false)) pcAndSkip = some (3996, true) ∧
    after (exec (.bnp (wrap32 (-4))) (branching false false true)) pcAndSkip = some (4008, false) := by decide

theorem test_bn :
    after (exec (.bn 8#32) (branching false true false)) pcAndSkip = some (4008, true) ∧
    after (exec (.bn (wrap32 (-4))) (branching false true false)) pcAndSkip = some (3996, true) ∧
    after (exec (.bn (wrap32 (-4))) (branching false false true)) pcAndSkip = some (4008, false) := by decide

theorem test_bnn :
    after (exec (.bnn 8#32) (branching true false false)) pcAndSkip = some (4008, true) ∧
    after (exec (.bnn (wrap32 (-4))) (branching true false false)) pcAndSkip = some (3996, true) ∧
    after (exec (.bnn (wrap32 (-4))) (branching false true false)) pcAndSkip = some (4008, false) := by decide

theorem test_halt_commits :
    after (exec .halt { State.reset with phase := .writeback, lW := Latch.fetched Instr.halt.toRecord 4000#32 })
      (fun s => (s.runState, s.icount, s.clk, s.lW)) = some (.halted, 1, 1, Latch.bubble) := by decide

theorem test_nop_goes_on :
    after (exec .nop (inExecute 5 6)) (fun s => (s.lE, s.lM.empty, s.pc, s.z, s.x)) =
      some (Latch.bubble, false, 4008#32, false, State.reset.x) := by decide

/-- `withFetchWord` places a word the very next step fetches. -/
theorem test_step_fetches_the_placed_word :
    after (step (State.reset.withFetchWord 64 0x00C2200000000000)) (fun s => (s.lD.instr, s.lD.empty, s.pc, s.clk)) =
      some (.add 3 1 2, false, 4004#32, 2) := by decide

/-! ### States that meet the hypotheses of the obligations -/

/-- Reset with the program `is`. -/
def program (is : List Instr) : State := State.resetWith { Inputs.unloaded with imem := is.map Instr.toRecord }

theorem reset_ready : ∀ r : Reg, State.reset.isReady r = true := by decide

theorem test_program_launched (is : List Instr) : (program is).Launched :=
  ⟨⟨rfl, rfl, rfl, rfl, rfl, reset_ready, rfl, rfl, rfl⟩, rfl, rfl, rfl, rfl⟩

theorem test_program_will_pass (is : List Instr) : (program is).WillPass :=
  ⟨rfl, (by decide : 1 ≤ Config.cycleLimitDefault), rfl⟩

/-- Reset, with `i`, fetched from 4000, in Decode. -/
def fetched (i : Instr) : State :=
  { State.reset with lD := Latch.fetched i.toRecord 4000#32, pc := 4004#32 }

theorem fetched_instr (i : Instr) : (fetched i).lD.instr = i := by cases i <;> rfl

/-- Every instruction can be in Decode with nothing older in flight: the hypothesis of every net effect. -/
theorem test_witness_entered (i : Instr) : (fetched i).Entered i :=
  ⟨fetched_instr i, ⟨rfl, rfl, rfl⟩, rfl, rfl, rfl, reset_ready, rfl, rfl⟩

theorem test_fetched_will_pass (i : Instr) : (fetched i).WillPass :=
  ⟨rfl, (by decide : 1 ≤ Config.cycleLimitDefault), rfl⟩

theorem not_empty_bubble {p : Prop} (h : Latch.bubble.empty = false) : p := absurd h (by decide)

theorem test_fetched_inv (i : Instr) : (fetched i).Inv where
  readyTracks := reset_ready
  flagsTrack := rfl
  fetchShape := .inl rfl
  decodeShape := .inr (.inl ⟨rfl, rfl, rfl⟩)
  executeShape := .inl rfl
  memoryShape := .inl rfl
  writebackShape := .inl rfl
  noSkip := rfl
  heldFetch h := not_empty_bubble h.1
  stalledDecode h := absurd (show false = true from h.2.1) (by decide)
  shutTogether := rfl
  shutExecute h := absurd (show false = true from h) (by decide)
  shutMemory h := absurd (show false = true from h) (by decide)
  haltInExecute h := not_empty_bubble h.1
  haltInMemory h := not_empty_bubble h.1
  haltInWriteback h := not_empty_bubble h.1
  dispatchFreesFetch h := not_empty_bubble h.1
  oneFlag := ⟨rfl, rfl, rfl⟩
  countBelowClock := (by decide : 0 + 0 + 1 ≤ 1)
  memoryWf := rfl
  memoryWithin := rfl
  atBoundary := rfl

/-! Encoding. -/

theorem test_witness_word_form :
    25 < ((0xD000000000000000#64 : BitVec 64) >>> 59).toNat ∧ ((0xC800000000000000#64 : BitVec 64) >>> 59).toNat ≤ 25 ∧
      (decodeRecord 0xC802000000000005#64).toOption = some ⟨.CML, 0, 1, 0, 5#32⟩ := by decide

theorem test_witness_ignored_bits :
    decode 0x0082100000000000#64 = .ok (.add 2 1 1) ∧
      0x00821FFFFFFFFFFF#64 &&& formatMask (.add 2 1 1) = 0x0082100000000000#64 &&& formatMask (.add 2 1 1) ∧
      0x00821FFFFFFFFFFF#64 ≠ 0x0082100000000000#64 := by decide

theorem test_witness_reserved_opcodes :
    25 < ((0xFFFFFFFFFFFFFFFF#64 : BitVec 64) >>> 59).toNat ∧ ((0#64 : BitVec 64) >>> 59).toNat ≤ 25 := by decide

/-! Construction. -/

theorem test_witness_construct : construct goodInputs =
    some (State.resetWith ⟨[⟨.HALT, 0, 0, 0, 0#32⟩], 4000#32, 4096, 100, none⟩) := by decide

theorem test_witness_constructor_refuses :
    construct { goodInputs with codeBase := 4001#32 } = none := by decide

/-! The step. -/

/-- Reset with the record of `w` where the next step fetches. -/
def placed : State := State.reset.withFetchWord 64 0xC802000000000005

theorem test_witness_step_fetches :
    placed.WillPass ∧ placed.Drained ∧ decodeRecord 0xC802000000000005#64 = .ok ⟨.CML, 0, 1, 0, 5#32⟩ ∧
      decode 0xC802000000000005#64 = .ok (.cml 1 5#32) ∧ placed.iFetch = some ⟨.CML, 0, 1, 0, 5#32⟩ :=
  ⟨⟨rfl, by decide, rfl⟩, ⟨rfl, rfl, rfl, rfl, rfl, by decide, rfl, rfl, rfl⟩, by rfl, by decide, by decide⟩

/-- A NOP in every latch. -/
def busy : State :=
  let l := Latch.fetched Instr.nop.toRecord 4000#32
  { State.reset with lF := l, lD := l, lE := l, lM := l, lW := l }

theorem test_witness_reverse_order :
    busy.WillPass ∧ busy.lW.active = some .nop ∧ busy.lM.active = some .nop ∧ busy.lE.active = some .nop ∧
      busy.lE.stalled = false ∧ busy.lD.active = some .nop ∧ busy.lF.interrupted = false ∧ busy.fSkip = false ∧
      busy.fetchTarget = some .nop :=
  ⟨⟨rfl, by decide, rfl⟩, rfl, rfl, rfl, rfl, rfl, rfl, rfl, rfl⟩

theorem test_witness_reverse_order_guards :
    State.reset.lW.active = none ∧ State.reset.lM.active = none ∧ State.reset.lE.active = none ∧
      State.reset.lD.active = none ∧ State.reset.fetchTarget = none ∧
      ({ Latch.bubble with interrupted := true } : Latch).interrupted = true ∧
      ({ State.reset with fSkip := true } : State).lF.interrupted = false := by decide

theorem test_witness_terminal : ({ State.reset with runState := .halted } : State).runState ≠ .running := by decide

theorem test_witness_boundary_stop :
    ({ State.reset with clk := 1000001 } : State).inputs.cycleLimit < 1000001 ∧
      State.reset.runState = .running ∧ State.reset.clk ≤ State.reset.inputs.cycleLimit ∧
      (State.resetWith { Inputs.unloaded with retireLimit := some 0 }).inputs.retireLimit = some 0 ∧
      0 ≤ State.reset.icount := by decide

/-- A DIV in Execute with divisor 0. -/
def dividing : State := { State.reset with lE := Latch.fetched (Instr.div 0 0 0).toRecord 4000#32 }

/-- A LOAD in Memory one word past the last, over a DIV in Execute with divisor 0: two faults. -/
def reaching : State :=
  { dividing with lM := { Latch.fetched (Instr.load 0 0 0#32).toRecord 4000#32 with memoryAddress := 4096#32 } }

/-- A HALT about to commit over both. -/
def halting : State := { reaching with lW := Latch.fetched Instr.halt.toRecord 4000#32 }

theorem test_witness_divide_fault :
    dividing.WillPass ∧ step dividing = .next { dividing with runState := .fault .divideByZero } ∧
      dividing.zeroDivisor = true := ⟨⟨rfl, by decide, rfl⟩, rfl, rfl⟩

theorem test_witness_address_fault :
    reaching.WillPass ∧ step reaching = .next { reaching with runState := .fault .dataAddressOutOfRange } ∧
      reaching.badAddress = true := ⟨⟨rfl, by decide, rfl⟩, rfl, rfl⟩

theorem test_witness_halt_commits :
    halting.WillPass ∧ after (step halting) (·.runState) = some .halted ∧ halting.haltCommits = true :=
  ⟨⟨rfl, by decide, rfl⟩, by decide, rfl⟩

theorem test_witness_counters :
    State.reset.runState = .running ∧ after (step busy) (fun t => (t.runState, t.icount)) = some (.running, 1) ∧
      after (step halting) (fun t => (t.clk, t.icount)) = some (1, 1) := by decide

/-! Memory. -/

theorem test_witness_memory_bounds :
    (0 ≤ (0#32 : Word).toInt ∧ (0#32 : Word).toInt < (State.reset.inputs.dmemWords : Int)) ∧
    (0 ≤ (4095#32 : Word).toInt ∧ (4095#32 : Word).toInt < (State.reset.inputs.dmemWords : Int)) ∧
    ¬ (0 ≤ (4096#32 : Word).toInt ∧ (4096#32 : Word).toInt < (State.reset.inputs.dmemWords : Int)) ∧
    ¬ (0 ≤ (wrap32 (-1)).toInt ∧ (wrap32 (-1)).toInt < (State.reset.inputs.dmemWords : Int)) ∧
    Memory.wf State.reset.dmem = true := by decide

theorem test_witness_memory_read :
    (inMemory 12 0).phase = .memory ∧ after (exec (.load 3 2 0#32) (inMemory 12 0)) (·.lM) = some Latch.bubble ∧
      after (exec (.loadp 3 2 0#32) (inMemory 4095 0)) (·.lM) = some Latch.bubble := by decide

/-- The offset of `PC` from `CODE_BASE`, and the length of instruction memory. -/
theorem test_witness_ifetch :
    ((program [.nop]).pc.toInt - 4000 = 0 ∧ (program [.nop]).inputs.imem.length = 1) ∧
    (program [.nop]).iFetch = some Instr.nop.toRecord ∧
    ({ program [.nop] with pc := 4004#32 } : State).iFetch = none ∧
    ({ program [.nop] with pc := 4002#32 } : State).iFetch = none ∧
    ({ program [.nop] with pc := 3996#32 } : State).iFetch = none := by decide

/-! Stage actions. -/

theorem test_witness_fetch_action :
    (program [.nop]).phase = .fetch ∧ (program [.nop]).lF.empty = true ∧
      (program [.nop]).iFetch = some Instr.nop.toRecord ∧ (program [.nop]).lD.stalled = false ∧
      State.reset.iFetch = none ∧ busy.phase = .fetch ∧ busy.lF.empty = false ∧ busy.lD.stalled = false := by decide

theorem test_witness_fetch_action_held :
    let s : State := { program [.nop] with lD := { busy.lD with stalled := true } }
    let t : State := { s with lF := busy.lF }
    s.phase = .fetch ∧ s.lF.empty = true ∧ s.iFetch.isSome = true ∧ s.lD.stalled = true ∧
      t.phase = .fetch ∧ t.lF.empty = false ∧ t.lD.stalled = true := by decide

theorem test_witness_dispatch :
    let s := (fetched (.bz 8#32)).during .decode
    s.phase = .decode ∧ ¬ (s.lE.empty = false ∧ s.lE.stalled = true) ∧
      (∀ r ∈ srcsOf (.storep 1 2 0#32), s.isReady r = true) ∧
      (∀ r ∈ srcsOf (.bz 8#32), s.isReady r = true) ∧ s.flagsValid = true := by decide

/-- A NOP in every latch, Decode under evaluation. -/
def decoding : State := busy.during .decode

theorem test_witness_stall :
    let held : State := { decoding with lE := { busy.lE with stalled := true } }
    let pending : State := decoding.markNotReady [1]
    let producing : State := { decoding with flagsValid := false }
    held.phase = .decode ∧ held.lE.empty = false ∧ held.lE.stalled = true ∧
      pending.phase = .decode ∧ (∃ r ∈ srcsOf (.add 3 1 2), pending.isReady r = false) ∧
      producing.phase = .decode ∧ isConditionalBranch (.bnn 8#32) = true ∧ producing.flagsValid = false := by decide

theorem test_witness_execute :
    (inExecute 7 0).phase = .execute ∧ (inExecute 7 0).lE.rs2Value.toInt = 0 ∧ (inExecute 7 2).lE.rs2Value.toInt ≠ 0 ∧
      (branching true false false).z = true ∧ (branching true false false).n = false ∧
      (branching true false false).p = false ∧ (branching false true true).z = false ∧
      (branching false true true).n = true ∧ (branching false true true).p = true := by decide

theorem test_witness_memory_stage :
    (inMemory 0 0).phase = .memory ∧ Memory.wf (inMemory 0 0).dmem = true ∧ isMemoryOp (.cmp 1 2) = false ∧
      Instr.cmp 1 2 ≠ .halt ∧ (inMemory 4095 0).lM.memoryAddress.toInt = 4095 ∧
      (inMemory 4096 0).lM.memoryAddress.toInt = 4096 ∧ (inMemory (-1) 0).lM.memoryAddress.toInt = -1 := by decide

theorem test_witness_writeback :
    (busy.during .writeback).phase = .writeback ∧ Instr.loadp 3 2 0#32 ≠ .halt ∧ (2 : Reg) ≠ 3 ∧
      destsOf (.loadp 3 2 0#32) = [3, 2] ∧ destsOf (.storep 1 2 0#32) = [2] ∧ destsOf (.jalr 5 1 0#32) = [5] ∧
      destsOf (.cmp 1 2) = [] := by decide

/-! Net effects: the ranges of the addresses, read from register 1, which is 0. -/

theorem test_witness_net_effect_ranges :
    let s := fetched (.load 3 1 4095#32)
    (wrap32 ((s.readReg 1).toInt + (4095#32 : Word).toInt)).toInt = 4095 ∧
      (wrap32 ((s.readReg 1).toInt + (0#32 : Word).toInt)).toInt = 0 ∧
      (wrap32 ((s.readReg 1).toInt + (4096#32 : Word).toInt)).toInt = 4096 ∧
      (wrap32 ((s.readReg 1).toInt + (0xFFFFFFFF#32 : Word).toInt)).toInt = -1 ∧
      s.inputs.dmemWords = 4096 ∧ Memory.wf s.dmem = true := by decide

/-- `fetched`, with register 2 not 0: the divisor of DIV R3,R1,R2 at either value. -/
theorem test_witness_net_effect_div :
    let s := (fetched (.div 3 1 2)).writeReg 2 7#32
    (s.readReg 2).toInt ≠ 0 ∧ s.Entered (.div 3 1 2) ∧ ((fetched (.div 3 1 2)).readReg 2).toInt = 0 :=
  ⟨by decide, ⟨rfl, ⟨rfl, rfl, rfl⟩, rfl, rfl, rfl, by decide, rfl, rfl⟩, by decide⟩

theorem test_witness_arithmetic :
    (∃ t, Carried (.xor 3 1 2) (fetched (.xor 3 1 2)) t) ∧ (∃ t, Carried (.add 3 1 2) (fetched (.add 3 1 2)) t) ∧
      (2#32 : Word) ≠ 0#32 ∧ ¬ ((7#32 : Word).toInt = -2147483648 ∧ (2#32 : Word).toInt = -1) :=
  ⟨⟨_, _, _, _, rfl, rfl, rfl, rfl⟩, ⟨_, _, _, _, rfl, rfl, rfl, rfl⟩, by decide, by decide⟩

/-- The same instruction with its sources swapped, over the same registers, and with one source twice. -/
theorem test_witness_arithmetic_sources :
    (fetched (.mul 3 1 2)).Entered (.mul 3 1 2) ∧ (fetched (.mul 3 2 1)).Entered (.mul 3 2 1) ∧
      (fetched (.mul 3 2 1)).x = (fetched (.mul 3 1 2)).x ∧ (∃ t, Carried (.mul 3 1 2) (fetched (.mul 3 1 2)) t) ∧
      (∃ t, Carried (.mul 3 2 1) (fetched (.mul 3 2 1)) t) ∧ (fetched (.or 3 1 1)).Entered (.or 3 1 1) ∧
      (∃ t, Carried (.or 3 1 1) (fetched (.or 3 1 1)) t) :=
  ⟨test_witness_entered _, test_witness_entered _, rfl, ⟨_, _, _, _, rfl, rfl, rfl, rfl⟩,
    ⟨_, _, _, _, rfl, rfl, rfl, rfl⟩, test_witness_entered _, ⟨_, _, _, _, rfl, rfl, rfl, rfl⟩⟩

/-! What a step changes. -/

/-- A MOVC in Writeback, a STORE of 7 to `DMEM[3]` in Memory, a JUMP to 8 in Execute. -/
def changing : State :=
  { State.reset with
    lW := { Latch.fetched (Instr.movc 4 9#32).toRecord 4000#32 with result := 9#32 }
    lM := { Latch.fetched (Instr.store 1 2 3#32).toRecord 4004#32 with memoryAddress := 3#32, rs1Value := 7#32 }
    lE := Latch.fetched (Instr.jump 1 8#32).toRecord 4008#32 }

theorem test_witness_changes :
    after (step changing) (fun t => (t.readReg 4, Memory.read t.dmem 3, t.pc, t.runState)) =
      some (9#32, 7#32, 8#32, .running) ∧
    changing.readReg 4 ≠ 9#32 ∧ Memory.read changing.dmem 3 ≠ 7#32 ∧ Memory.wf changing.dmem = true := by decide

theorem test_witness_redirect : changing.WillPass ∧ changing.redirectTarget = some 8#32 ∧ busy.redirectTarget = none ∧
    busy.WillPass ∧ after (step busy) (·.runState) = some .running ∧ changing.isReady 31 = true :=
  ⟨⟨rfl, by decide, rfl⟩, rfl, rfl, ⟨rfl, by decide, rfl⟩, by decide, by decide⟩

theorem test_witness_codes : after (step { State.reset with lE := Latch.fetched (Instr.movc 4 9#32).toRecord 4000#32 })
    (fun t => (t.z, t.n, t.p)) = some (false, false, true) := by decide

/-! The invariant and the machine of R99. -/

theorem test_witness_inv_step :
    (fetched (.addl 1 1 1#32)).Inv ∧ (fetched (.addl 1 1 1#32)).WillPass ∧
      after (step (fetched (.addl 1 1 1#32))) (fun t => (t.runState, t.lE.empty, t.lE.stalled, t.lE.interrupted)) =
        some (.running, false, false, false) ∧
      (fetched (.addl 1 1 1#32)).lD.active = some (.addl 1 1 1#32) :=
  ⟨test_fetched_inv _, test_fetched_will_pass _, by decide, rfl⟩

theorem test_witness_reachable : ∃ s t, construct goodInputs = some s ∧ Host.Core.run Sys2Proof.core 1 s = .next t :=
  ⟨_, _, test_witness_construct, rfl⟩

/-- Before any flag writer has executed, with a HALT in Execute. -/
theorem test_witness_reachable_no_flag_writer :
    let s := State.resetWith ⟨[⟨.HALT, 0, 0, 0, 0#32⟩], 4000#32, 4096, 100, none⟩
    after (Host.Core.run Sys2Proof.core 2 s) (·.executing) = some (some .halt) ∧
      after (Host.Core.run Sys2Proof.core 3 s) (fun t => (t.runState, t.z, t.n, t.p)) =
        some (.running, false, false, false) := by decide

/-- Whether `L_W`, `L_M`, `L_E`, `L_D`, `L_F` hold an instruction to act on, and whether Execute is about to redirect. -/
def occupancy (t : State) : List Bool :=
  [t.lW.active.isSome, t.lM.active.isSome, t.lE.active.isSome, t.lD.active.isSome, t.lF.active.isSome,
    t.redirectTarget.isSome]

/-- A full pipeline; a held instruction behind a stalled one; one behind a jump. All are launch states. -/
theorem test_witness_program_order :
    after (Host.Core.run Sys2Proof.core 4 (program [.nop, .nop, .nop, .nop, .nop])) occupancy =
      some [true, true, true, true, false, false] ∧
    after (Host.Core.run Sys2Proof.core 3 (program [.movc 1 5#32, .add 2 1 1, .nop])) occupancy =
      some [false, true, false, true, true, false] ∧
    after (Host.Core.run Sys2Proof.core 2 (program [.jump 1 8#32, .nop, .nop])) occupancy =
      some [false, false, true, true, false, true] ∧
    (∃ u, seqRun 3 (program [.nop, .nop, .nop, .nop, .nop]).seqView = .next u) :=
  ⟨by decide, by decide, by decide, ⟨_, rfl⟩⟩

/-- R99: the one-at-a-time machine stops on HALT before it moves `pc`, with the HALT counted. -/
theorem test_seq_halt_keeps_pc :
    seqStep (program [.halt]).seqView = .halted { (program [.halt]).seqView with count := 1 } := by rfl

/-- An instruction in Execute and one behind it in Decode. -/
def waiting (producer consumer : Instr) : State :=
  let s := { fetched consumer with lE := Latch.fetched producer.toRecord 3996#32 }
  s.markNotReady (destsOf producer)

theorem test_waiting_inv : (waiting (.movc 1 5#32) (.add 2 1 1)).Inv where
  readyTracks := by decide
  flagsTrack := rfl
  fetchShape := .inl rfl
  decodeShape := .inr (.inl ⟨rfl, rfl, rfl⟩)
  executeShape := .inr (.inl ⟨rfl, rfl, rfl⟩)
  memoryShape := .inl rfl
  writebackShape := .inl rfl
  noSkip := rfl
  heldFetch h := absurd h.1 (by decide)
  stalledDecode h := absurd h.2.1 (by decide)
  shutTogether := rfl
  shutExecute h := absurd h (by decide)
  shutMemory h := absurd h (by decide)
  haltInExecute h := absurd h.2 (by decide)
  haltInMemory h := absurd h.1 (by decide)
  haltInWriteback h := absurd h.1 (by decide)
  dispatchFreesFetch _ := rfl
  oneFlag := by decide
  countBelowClock := by decide
  memoryWf := rfl
  memoryWithin := rfl
  atBoundary := rfl

/-- The source's case of R155: ADD right behind the MOVC it reads. -/
theorem test_witness_two_passes :
    let s := waiting (.movc 1 5#32) (.add 2 1 1)
    s.lD.active = some (.add 2 1 1) ∧ s.redirectTarget = none ∧ (∃ r ∈ srcsOf (.add 2 1 1), s.lE.writes r = true) ∧
      after (Host.Core.run Sys2Proof.core 3 s) (fun t => (t.runState, t.lE.instr)) =
        some (.running, .add 2 1 1) := by decide

theorem test_witness_two_passes_branch :
    let s := waiting (.cml 1 5#32) (.bz 8#32)
    s.lD.active = some (.bz 8#32) ∧ s.redirectTarget = none ∧ isConditionalBranch (.bz 8#32) = true ∧
      s.lE.isProducer = true ∧
      after (Host.Core.run Sys2Proof.core 3 s) (fun t => (t.runState, t.lE.instr)) =
        some (.running, .bz 8#32) := by decide

/-- A program of one HALT, when that HALT is in Writeback. -/
def haltInWriteback : State :=
  let h := Latch.fetched Instr.halt.toRecord 4000#32
  let shut := { h with interrupted := true }
  { program [.halt] with
    pc := 4004#32, clk := 5, lF := { Latch.bubble with interrupted := true }, lD := shut, lE := shut, lM := shut
    lW := h }

theorem test_witness_frozen_state_inv : haltInWriteback.Inv where
  readyTracks := by decide
  flagsTrack := rfl
  fetchShape := .inr (.inr ⟨rfl, rfl, rfl⟩)
  decodeShape := .inr (.inr (.inr ⟨rfl, rfl, rfl, rfl⟩))
  executeShape := .inr (.inr ⟨rfl, rfl, rfl, rfl⟩)
  memoryShape := .inr (.inr ⟨rfl, rfl, rfl, rfl⟩)
  writebackShape := .inr ⟨rfl, rfl, rfl⟩
  noSkip := rfl
  heldFetch h := absurd h.1 (by decide)
  stalledDecode h := absurd h.2.1 (by decide)
  shutTogether := rfl
  shutExecute _ := rfl
  shutMemory _ := rfl
  haltInExecute _ := rfl
  haltInMemory _ := rfl
  haltInWriteback _ := rfl
  dispatchFreesFetch h := absurd h.2.2 (by decide)
  oneFlag := by decide
  countBelowClock := by decide
  memoryWf := rfl
  memoryWithin := rfl
  atBoundary := rfl

theorem test_witness_frozen_state :
    haltInWriteback.WillPass ∧ after (step haltInWriteback) (·.runState) = some .halted :=
  ⟨⟨rfl, by decide, rfl⟩, by decide⟩

theorem test_witness_halted_run :
    (program [.halt]).Launched ∧
      after (Host.Core.run Sys2Proof.core 5 (program [.halt])) (fun t => (t.runState, t.icount)) = some (.halted, 1) :=
  ⟨test_program_launched _, by decide⟩

theorem test_witness_faulted_run :
    (program [.div 0 0 0]).Launched ∧
      after (Host.Core.run Sys2Proof.core 3 (program [.div 0 0 0])) (·.runState) = some (.fault .divideByZero) :=
  ⟨test_program_launched _, by decide⟩

theorem test_witness_nothing_before_pass_five :
    (program [.nop]).Launched ∧
      after (Host.Core.run Sys2Proof.core 4 (program [.nop])) (fun t => (t.clk, t.icount)) = some (5, 0) :=
  ⟨test_program_launched _, by decide⟩

theorem test_witness_sequential_ends :
    (program [.halt]).inputs.retireLimit = none ∧
      (∃ u, seqRun 1 (program [.halt]).seqView = .halted u) ∧
      seqRun 1 (program [.div 0 0 0]).seqView = .fault .divideByZero :=
  ⟨rfl, ⟨_, rfl⟩, rfl⟩

end Sys2Proof.Machine.Tests
end

/-! PROOFS. Data memory and instruction memory: `20_memory.md` R42, R43, R45. -/

namespace Sys2Proof.Machine

/-! ### Data memory -/

/-- The address test, in the spec's words (`20_memory.md` R42). -/
theorem State.dataAddressOk_iff (s : State) (addr : Word) :
    s.dataAddressOk addr = true ↔ 0 ≤ addr.toInt ∧ addr.toInt < (s.inputs.dmemWords : Int) := by
  simp [State.dataAddressOk]

/-- The word `putWord` writes is read back from a canonical memory. -/
theorem State.read_putWord_self {s : State} (hm : Memory.wf s.dmem = true) (addr v : Word) :
    Memory.read (s.putWord addr v).dmem addr.toInt.toNat = v :=
  Memory.read_write_self hm _ v

/-- `putWord` leaves every other word alone. -/
theorem State.read_putWord_of_ne (s : State) (addr v : Word) {a : Nat} (h : a ≠ addr.toInt.toNat) :
    Memory.read (s.putWord addr v).dmem a = Memory.read s.dmem a :=
  Memory.read_write_of_ne _ v h

/-- `putWord` writes data memory and nothing else. -/
theorem State.putWord_frame (s : State) (addr v : Word) :
    s.putWord addr v = { s with dmem := (s.putWord addr v).dmem } := rfl

/-- Memory's action on a load has no side effect on data memory (`20_memory.md` R42). -/
theorem memoryLoad_dmem {s t : State} (h : memoryLoad s = .next t) : t.dmem = s.dmem := by
  obtain ⟨_, hload⟩ | ⟨_, hfault⟩ := memoryLoad_cases s
  · rw [hload] at h
    cases h
    exact State.toWriteback_dmem _ _
  · rw [hfault] at h
    cases h

/-- In Memory an instruction that reads data memory leaves it as it was. -/
theorem exec_memory_load_dmem {i : Instr} (hm : isMemoryOp i = true) (hs : isStore i = false) {s t : State}
    (hp : s.phase = .memory) (h : exec i s = .next t) : t.dmem = s.dmem := by
  rw [exec_memory_access hm hp, hs] at h
  exact memoryLoad_dmem h

/-- Settles O15: the address test decides what `MemRead` answers, and both loads are Memory's load action. -/
theorem memReadGivesTheWordOrFaults : Obligations.MemReadGivesTheWordOrFaults := by
  refine ⟨fun s addr => ?_, fun d a imm s t hp h => ?_⟩
  · rw [← s.dataAddressOk_iff addr]
    obtain ⟨hok, hword⟩ | ⟨hbad, hfault⟩ := s.memRead_cases addr
    · exact ⟨fun _ => hword, fun hn => absurd hok hn⟩
    · exact ⟨fun hok => absurd hok (ne_true_of_eq_false hbad), fun _ => hfault⟩
  · obtain hload | hloadp := h
    · exact exec_memory_load_dmem rfl rfl hp hload
    · exact exec_memory_load_dmem rfl rfl hp hloadp

/-- Settles O16: in range `MemWrite` is `putWord`, whose word, other words and frame are each a lemma. -/
theorem memWriteWritesOneWordOrFaults : Obligations.MemWriteWritesOneWordOrFaults := by
  intro s addr v hm
  rw [← s.dataAddressOk_iff addr]
  obtain ⟨hok, hput⟩ | ⟨hbad, hfault⟩ := s.memWrite_cases addr v
  · exact ⟨fun _ => ⟨s.putWord addr v, hput, State.read_putWord_self hm addr v,
      fun a ha => s.read_putWord_of_ne addr v ha, s.putWord_frame addr v⟩, fun hn => absurd hok hn⟩
  · exact ⟨fun hok => absurd hok (ne_true_of_eq_false hbad), fun _ => hfault⟩

/-! ### Instruction memory -/

/-- The index of an address at or after `CODE_BASE` and a multiple of 4 away from it (`20_memory.md` R45). -/
theorem fetchIndex_of_aligned {codeBase pc : Word} (h0 : 0 ≤ pc.toInt - codeBase.toInt)
    (h4 : (pc.toInt - codeBase.toInt) % 4 = 0) :
    fetchIndex codeBase pc = some ((pc.toInt - codeBase.toInt) / 4).toNat := if_pos ⟨h0, h4⟩

/-- Any other address has no index. -/
theorem fetchIndex_eq_none {codeBase pc : Word}
    (h : ¬ (0 ≤ pc.toInt - codeBase.toInt ∧ (pc.toInt - codeBase.toInt) % 4 = 0)) :
    fetchIndex codeBase pc = none := if_neg h

theorem State.iFetch_of_fetchIndex_some {s : State} {k : Nat} (h : fetchIndex s.inputs.codeBase s.pc = some k) :
    s.iFetch = s.inputs.imem[k]? := by
  rw [State.iFetch, h]

theorem State.iFetch_of_fetchIndex_none {s : State} (h : fetchIndex s.inputs.codeBase s.pc = none) :
    s.iFetch = none := by
  rw [State.iFetch, h]

/-- With no record at `PC` and nothing held, Fetch changes nothing (`40_pipeline_stages.md` R80). -/
theorem fetchAction_of_iFetch_none {s : State} (he : s.lF.empty = true) (hn : s.iFetch = none) :
    fetchAction s = .next s := by
  simpa [he, hn] using fetchAction_cases s

/-- Settles O17: an aligned offset has an index, which is in the program or past its end; any other has none. -/
theorem iFetchGivesTheRecordAtTheIndex : Obligations.IFetchGivesTheRecordAtTheIndex := by
  intro s off
  refine ⟨fun ⟨h0, h4, hlen⟩ => ?_, fun hout => ?_, fun hn hp he i => ?_⟩
  · have hrec : s.iFetch = s.inputs.imem[(off / 4).toNat]? :=
      State.iFetch_of_fetchIndex_some (fetchIndex_of_aligned h0 h4)
    have hin : (off / 4).toNat < s.inputs.imem.length := by omega
    exact ⟨hrec, by rw [hrec, List.getElem?_eq_getElem hin, Option.isSome_some]⟩
  · by_cases ha : 0 ≤ off ∧ off % 4 = 0
    · have hpast : s.inputs.imem.length ≤ (off / 4).toNat := by omega
      rw [State.iFetch_of_fetchIndex_some (fetchIndex_of_aligned ha.1 ha.2)]
      exact List.getElem?_eq_none hpast
    · exact State.iFetch_of_fetchIndex_none (fetchIndex_eq_none ha)
  · rw [exec_fetch i hp]
    exact fetchAction_of_iFetch_none he hn

end Sys2Proof.Machine

/-! PROOFS. The word form: `30_encoding.md` R58 to R67, R69, R71. -/

namespace Sys2Proof

/-! ### Fields of a word as numbers -/

/-- A word shifted down to a field's lowest bit (`30_encoding.md` R58). -/
theorem shiftRight_toNat (w : BitVec 64) (lo : Nat) : (w >>> lo).toNat = w.toNat / 2 ^ lo := by
  rw [BitVec.toNat_ushiftRight, Nat.shiftRight_eq_div_pow]

/-- The opcode field is the top of the word, so the shift alone reads it. -/
theorem opcodeField_toNat (w : BitVec 64) : (w.extractLsb' 59 5).toNat = (w >>> 59).toNat := by
  have hw := w.isLt
  rw [field_toNat, shiftRight_toNat]
  omega

/-! ### The decoder -/

/-- An opcode number above 25 is invalid (`30_encoding.md` R69, R71). -/
theorem decodeRecord_of_reserved {w : BitVec 64} (h : 25 < (w >>> 59).toNat) :
    decodeRecord w = .error (.reservedOpcode (w >>> 59).toNat) := by
  unfold decodeRecord
  rw [opcodeField_toNat, Opcode.ofNumber_eq_none.2 h]

/-- An opcode number up to 25 names an opcode (`30_encoding.md` R56). -/
theorem Opcode.exists_number_eq {n : Nat} (h : n ≤ 25) : ∃ op : Opcode, op.number = n := by
  cases hop : Opcode.ofNumber n with
  | none => exact absurd (Opcode.ofNumber_eq_none.1 hop) (Nat.not_lt.2 h)
  | some op => exact ⟨op, Opcode.ofNumber_eq_some.1 hop⟩

/-- The record decoded from a word whose opcode number is that of `op`, field by field (`30_encoding.md` R71). -/
theorem decodeRecord_of_opcode {w : BitVec 64} {op : Opcode} (h : op.number = (w >>> 59).toNat) :
    decodeRecord w = .ok ⟨op, regField w 54, regField w 49, regField w 44, w.extractLsb' 0 32⟩ :=
  decodeRecord_eq ((opcodeField_toNat w).trans h.symm)

/-- Decoding gives `r` exactly when `r`'s fields, as numbers, are the word's (`30_encoding.md` R71). -/
theorem decodeRecord_eq_ok {w : BitVec 64} {r : Record} :
    decodeRecord w = .ok r ↔
      r.opcode.number = w.toNat / 2 ^ 59 ∧ r.rd.val = w.toNat / 2 ^ 54 % 2 ^ 5 ∧
      r.rs1.val = w.toNat / 2 ^ 49 % 2 ^ 5 ∧ r.rs2.val = w.toNat / 2 ^ 44 % 2 ^ 5 ∧
      r.imm.toNat = w.toNat % 2 ^ 32 := by
  have himm : (w.extractLsb' 0 32).toNat = w.toNat % 2 ^ 32 := by
    rw [field_toNat, Nat.pow_zero, Nat.div_one]
  rw [← shiftRight_toNat w 59, ← regField_val, ← regField_val, ← regField_val, ← himm]
  constructor
  · intro h
    obtain hbad | hok := Nat.lt_or_ge 25 (w >>> 59).toNat
    · rw [decodeRecord_of_reserved hbad] at h
      cases h
    · obtain ⟨op, hop⟩ := Opcode.exists_number_eq hok
      rw [decodeRecord_of_opcode hop] at h
      cases h
      exact ⟨hop, rfl, rfl, rfl, rfl⟩
  · intro ⟨hop, hrd, hrs1, hrs2, hi⟩
    rw [decodeRecord_of_opcode hop, ← Fin.ext hrd, ← Fin.ext hrs1, ← Fin.ext hrs2, ← BitVec.eq_of_toNat_eq hi]

/-- Exactly the words with an opcode number up to 25 decode (`30_encoding.md` R69). -/
theorem exists_decodeRecord_eq_ok {w : BitVec 64} : (∃ r, decodeRecord w = .ok r) ↔ (w >>> 59).toNat ≤ 25 := by
  constructor
  · intro ⟨r, h⟩
    rw [shiftRight_toNat, ← (decodeRecord_eq_ok.1 h).1]
    exact r.opcode.number_le
  · intro h
    obtain ⟨op, hop⟩ := Opcode.exists_number_eq h
    exact ⟨_, decodeRecord_of_opcode hop⟩

/-- A word that decodes matches its row of the opcode table: `match` is opcode number · 2^59 (`30_encoding.md` R71). -/
theorem and_opcodeMask_of_decode {w : BitVec 64} {r : Record} (h : decodeRecord w = .ok r) :
    w &&& 0xF800000000000000#64 = BitVec.ofNat 64 (r.opcode.number * 2 ^ 59) := by
  have hmask : 0xF800000000000000#64 = BitVec.allOnes 64 <<< 59 := by decide
  obtain ⟨hop, -⟩ := decodeRecord_eq_ok.1 h
  apply BitVec.eq_of_toNat_eq
  rw [hmask, ← BitVec.shiftLeft_ushiftRight, BitVec.toNat_shiftLeft, shiftRight_toNat, ← hop, Nat.shiftLeft_eq,
    BitVec.toNat_ofNat]

/-! ### The encoder and the round trips -/

/-- The formula of `encode` does not wrap: it fits in 64 bits (`30_encoding.md` R58). -/
theorem encodeRecord_toNat (r : Record) :
    (encodeRecord r).toNat =
      r.opcode.number * 2 ^ 59 + r.rd.val * 2 ^ 54 + r.rs1.val * 2 ^ 49 + r.rs2.val * 2 ^ 44 + r.imm.toNat := by
  have hop := r.opcode.number_le
  have himm := r.imm.isLt
  rw [encodeRecord, BitVec.toNat_ofNat, Nat.mod_eq_of_lt]
  omega

/-- `decode(encode(r)) = r` (`30_encoding.md` R71). -/
theorem decodeRecord_encodeRecord (r : Record) : decodeRecord (encodeRecord r) = .ok r := by
  have hw := (encodeRecord r).isLt
  obtain ⟨hop, hrd, hrs1, hrs2, himm⟩ :=
    fields_of_sum r.opcode.number_le r.rd.isLt r.rs1.isLt r.rs2.isLt r.imm.isLt
  rw [← encodeRecord_toNat] at hop hrd hrs1 hrs2 himm
  have htop : r.opcode.number = (encodeRecord r).toNat / 2 ^ 59 := by omega
  exact decodeRecord_eq_ok.2 ⟨htop, hrd.symm, hrs1.symm, hrs2.symm, himm.symm⟩

/-- `encode(decode(w)) = w` exactly when the reserved bits are 0 (`30_encoding.md` R71). -/
theorem encodeRecord_eq_iff_of_decode {w : BitVec 64} {r : Record} (h : decodeRecord w = .ok r) :
    encodeRecord r = w ↔ (w >>> 32).toNat % 4096 = 0 := by
  obtain ⟨hop, hrd, hrs1, hrs2, himm⟩ := decodeRecord_eq_ok.1 h
  rw [← BitVec.toNat_inj, encodeRecord_toNat, shiftRight_toNat, hop, hrd, hrs1, hrs2, himm]
  omega

/-! ### The word as its fields side by side -/

/-- The word with the given fields side by side, the opcode's on top (`30_encoding.md` R58). -/
def wordOfFields (op rd rs1 rs2 : BitVec 5) (reserved : BitVec 12) (imm : BitVec 32) : BitVec 64 :=
  op ++ rd ++ rs1 ++ rs2 ++ reserved ++ imm

/-- A word of fields is masked field by field. -/
theorem wordOfFields_and (op rd rs1 rs2 op' rd' rs1' rs2' : BitVec 5) (res res' : BitVec 12) (imm imm' : BitVec 32) :
    wordOfFields op rd rs1 rs2 res imm &&& wordOfFields op' rd' rs1' rs2' res' imm' =
      wordOfFields (op &&& op') (rd &&& rd') (rs1 &&& rs1') (rs2 &&& rs2') (res &&& res') (imm &&& imm') := by
  simp only [wordOfFields, ← BitVec.and_append]

/-- Two fields side by side, as a number. -/
theorem toNat_append_eq_add {m n : Nat} (x : BitVec m) (y : BitVec n) :
    (x ++ y).toNat = x.toNat * 2 ^ n + y.toNat := by
  rw [BitVec.toNat_append, ← Nat.shiftLeft_add_eq_or_of_lt y.isLt, Nat.shiftLeft_eq]

/-- The 5 bits of a register index. -/
def regBits (a : Reg) : BitVec 5 := BitVec.ofFin a

@[simp] theorem regBits_toNat (a : Reg) : (regBits a).toNat = a.val := rfl

/-- The word of a record is its fields side by side (`30_encoding.md` R58). -/
theorem encodeRecord_eq_wordOfFields (r : Record) :
    encodeRecord r =
      wordOfFields (BitVec.ofNat 5 r.opcode.number) (regBits r.rd) (regBits r.rs1) (regBits r.rs2) 0#12 r.imm := by
  have hop : r.opcode.number % 2 ^ 5 = r.opcode.number :=
    Nat.mod_eq_of_lt (Nat.lt_of_le_of_lt r.opcode.number_le (by decide))
  apply BitVec.eq_of_toNat_eq
  simp only [encodeRecord_toNat, wordOfFields, toNat_append_eq_add, BitVec.toNat_ofNat, regBits_toNat, hop]
  omega

/-! ### The bits a format reads -/

/-- Which of the fields `rd`, `rs1`, `rs2`, `imm` a format reads. -/
structure FieldsRead where
  rd : Bool
  rs1 : Bool
  rs2 : Bool
  imm : Bool

/-- The fields the instruction's format reads, one case for each choice of fields (`30_encoding.md` R59 to R67). -/
def Instr.fieldsRead : Instr → FieldsRead
  | .add _ _ _ | .sub _ _ _ | .mul _ _ _ | .div _ _ _ | .and _ _ _ | .or _ _ _ | .xor _ _ _ =>
    ⟨true, true, true, false⟩
  | .addl _ _ _ | .subl _ _ _ | .load _ _ _ | .loadp _ _ _ | .jalr _ _ _ => ⟨true, true, false, true⟩
  | .movc _ _ => ⟨true, false, false, true⟩
  | .store _ _ _ | .storep _ _ _ => ⟨false, true, true, true⟩
  | .cmp _ _ => ⟨false, true, true, false⟩
  | .cml _ _ | .jump _ _ => ⟨false, true, false, true⟩
  | .bz _ | .bnz _ | .bp _ | .bnp _ | .bn _ | .bnn _ => ⟨false, false, false, true⟩
  | .halt | .nop => ⟨false, false, false, false⟩

/-- A field's bits in a mask: all of them if the field is read, none if not. -/
def fieldMask (n : Nat) (read : Bool) : BitVec n := bif read then BitVec.allOnes n else 0#n

/-- A field under its mask is kept if it is read and 0 if not. -/
theorem and_fieldMask {n : Nat} (x : BitVec n) (read : Bool) : x &&& fieldMask n read = bif read then x else 0#n := by
  cases read
  · exact BitVec.and_zero
  · exact BitVec.and_allOnes

/-- The bits of those fields and of the opcode, in the layout of `30_encoding.md` R58. -/
def FieldsRead.mask (f : FieldsRead) : BitVec 64 :=
  wordOfFields (BitVec.allOnes 5) (fieldMask 5 f.rd) (fieldMask 5 f.rs1) (fieldMask 5 f.rs2) 0#12 (fieldMask 32 f.imm)

/-- The record with every field not read set to 0. -/
def FieldsRead.restrict (f : FieldsRead) (r : Record) : Record :=
  ⟨r.opcode, bif f.rd then r.rd else 0, bif f.rs1 then r.rs1 else 0, bif f.rs2 then r.rs2 else 0,
    bif f.imm then r.imm else 0#32⟩

/-- The model's mask of an instruction is the mask of the fields its format reads. -/
theorem mask_fieldsRead (i : Instr) : i.fieldsRead.mask = Machine.formatMask i := by
  cases i <;> simp only [Instr.fieldsRead, Machine.formatMask] <;> decide

/-- The canonical record already has every field its format ignores at 0 (`30_encoding.md` R69). -/
theorem restrict_fieldsRead_toRecord (i : Instr) : i.fieldsRead.restrict i.toRecord = i.toRecord := by cases i <;> rfl

theorem regBits_cond (a : Reg) (read : Bool) :
    regBits (bif read then a else 0) = bif read then regBits a else 0#5 := by cases read <;> rfl

/-- Masking a word is encoding the record with the fields not read set to 0. -/
theorem encodeRecord_and_mask (f : FieldsRead) (r : Record) :
    encodeRecord r &&& f.mask = encodeRecord (f.restrict r) := by
  simp only [encodeRecord_eq_wordOfFields, FieldsRead.mask, wordOfFields_and, FieldsRead.restrict,
    and_fieldMask, regBits_cond, BitVec.and_allOnes, BitVec.and_zero]

/-- The canonical encoding sets no bit its format ignores (`30_encoding.md` R69, R71). -/
theorem encode_and_formatMask (i : Instr) : encode i &&& Machine.formatMask i = encode i := by
  calc encode i &&& Machine.formatMask i
      = encodeRecord i.toRecord &&& i.fieldsRead.mask := by rw [encode, mask_fieldsRead]
    _ = encodeRecord (i.fieldsRead.restrict i.toRecord) := encodeRecord_and_mask _ _
    _ = encode i := by rw [restrict_fieldsRead_toRecord, encode]

/-! ### The obligation -/

/-- The record of `30_encoding.md` R71 with each field written as a shift and a remainder. -/
theorem decodeRecord_by_shifts {w : BitVec 64} {op : Opcode} (h : op.number = (w >>> 59).toNat) :
    decodeRecord w = .ok ⟨op, ⟨(w >>> 54).toNat % 32, Nat.mod_lt _ (Nat.zero_lt_succ 31)⟩,
      ⟨(w >>> 49).toNat % 32, Nat.mod_lt _ (Nat.zero_lt_succ 31)⟩,
      ⟨(w >>> 44).toNat % 32, Nat.mod_lt _ (Nat.zero_lt_succ 31)⟩, w.setWidth 32⟩ := by
  rw [decodeRecord_eq_ok]
  simp only [shiftRight_toNat] at h ⊢
  exact ⟨h, rfl, rfl, rfl, BitVec.toNat_setWidth 32 w⟩

/-- Settles O2: the decoder and the encoder as numbers give the fields, both round trips and the match; the layout as
fields side by side gives the mask; the worked examples are evaluated. -/
theorem wordFormOfRecords : Obligations.WordFormOfRecords := by
  refine ⟨fun w hbad => ⟨_, decodeRecord_of_reserved hbad⟩, fun w hok => ?_, encodeRecord_toNat,
    decodeRecord_encodeRecord, fun w => ?_, encode_and_formatMask, by decide, by decide, by decide, by decide,
    by decide, by decide, by decide, by decide, fun w r => and_opcodeMask_of_decode⟩
  · obtain ⟨op, hop⟩ := Opcode.exists_number_eq hok
    exact ⟨op, Opcode.ofNumber_eq_some.2 hop, decodeRecord_by_shifts hop⟩
  · constructor
    · intro ⟨r, hdec, henc⟩
      exact ⟨(encodeRecord_eq_iff_of_decode hdec).1 henc, exists_decodeRecord_eq_ok.1 ⟨r, hdec⟩⟩
    · intro ⟨hzero, hok⟩
      obtain ⟨r, hdec⟩ := exists_decodeRecord_eq_ok.2 hok
      exact ⟨r, hdec, (encodeRecord_eq_iff_of_decode hdec).2 hzero⟩

end Sys2Proof

/-! PROOFS. Terminal states: `60_exceptions.md` R142. -/

namespace Sys2Proof.Machine

/-- A step from a terminal state gives that state (`40_pipeline_stages.md` R72, `60_exceptions.md` R142). -/
theorem step_of_terminal {s : State} (hs : s.runState ≠ .running) : step s = .next s := if_pos hs

/-- A state a step gives back unchanged is what any number of steps gives. -/
theorem run_of_step_fixed {M : Host.Core} {s : M.State} (hfix : M.step s = .next s) (k : Nat) :
    M.run k s = .next s := by
  induction k with
  | zero => rfl
  | succ k ih => simp only [Host.Core.run, hfix, ih]

@[simp] theorem State.resetWith_runState (inputs : Inputs) : (State.resetWith inputs).runState = .running := rfl

/-- Settles O11: a terminal state is a fixed point of the step, hence of any number of steps; reset, with the inputs
kept, gives the run state its reset value. -/
theorem terminalStatesNeverChange : Obligations.TerminalStatesNeverChange :=
  ⟨fun _ k hs => run_of_step_fixed (step_of_terminal hs) k,
    fun s => State.resetWith_runState s.inputs⟩

end Sys2Proof.Machine

/-! PROOFS. Construction and reset: `70_reset_and_hazards.md` R148, R149, R151. -/

namespace Sys2Proof.Machine

/-! ### Loading the program -/

/-- Loading a record and then the rest answers exactly when both do. -/
theorem loadRecords_cons_eq_some {r : RawRecord} {rs : List RawRecord} {records : List Record} :
    loadRecords (r :: rs) = some records ↔
      ∃ q qs, r.toRecord = some q ∧ loadRecords rs = some qs ∧ q :: qs = records := by
  rw [loadRecords]
  cases r.toRecord with
  | none => simp
  | some q => cases loadRecords rs <;> simp

/-- Loading answers exactly when every record has a checked form, and then with those, in order (R151). -/
theorem loadRecords_eq_some {raws : List RawRecord} {records : List Record} :
    loadRecords raws = some records ↔ raws.map RawRecord.toRecord = records.map some := by
  induction raws generalizing records with
  | nil => cases records <;> simp [loadRecords]
  | cons r rs ih =>
    rw [loadRecords_cons_eq_some]
    cases records with
    | nil => simp
    | cons q qs => simp [ih]

/-- Every record given is loaded. -/
theorem length_of_loadRecords {raws : List RawRecord} {records : List Record}
    (h : loadRecords raws = some records) : records.length = raws.length := by
  simpa using congrArg List.length (loadRecords_eq_some.1 h).symm

/-- The record at an index is the checked form of the one given there. -/
theorem getElem?_of_loadRecords {raws : List RawRecord} {records : List Record}
    (h : loadRecords raws = some records) (k : Nat) : records[k]? = raws[k]?.bind RawRecord.toRecord := by
  have hk : raws[k]?.map RawRecord.toRecord = records[k]?.map some := by
    rw [← List.getElem?_map, ← List.getElem?_map, loadRecords_eq_some.1 h]
  calc records[k]? = (records[k]?.map some).bind id := by rw [Option.bind_map, Function.id_comp, Option.bind_fun_some]
    _ = (raws[k]?.map RawRecord.toRecord).bind id := by rw [hk]
    _ = raws[k]?.bind RawRecord.toRecord := by rw [Option.bind_map, Function.id_comp]

/-! ### The reset state -/

/-- Reset clears every register (R149). -/
@[simp] theorem State.readReg_resetWith (inputs : Inputs) (r : Reg) : (State.resetWith inputs).readReg r = 0#32 :=
  Vector.getElem_replicate r.isLt

/-- Reset makes every register ready (R149). -/
@[simp] theorem State.isReady_resetWith (inputs : Inputs) (r : Reg) : (State.resetWith inputs).isReady r = true :=
  Vector.getElem_replicate r.isLt

/-- Reset clears every word of data memory (R149). -/
@[simp] theorem State.read_resetWith_dmem (inputs : Inputs) (a : Nat) :
    Memory.read (State.resetWith inputs).dmem a = 0#32 := rfl

/-- The reset state for any inputs is a launch state: drained, at `CODE_BASE`, the counters at their first values
(`10_state.md` R40). -/
theorem State.launched_resetWith (inputs : Inputs) : (State.resetWith inputs).Launched where
  fetchEmpty := rfl
  decodeEmpty := rfl
  executeEmpty := rfl
  memoryEmpty := rfl
  writebackEmpty := rfl
  allReady := State.isReady_resetWith inputs
  flagsValid := rfl
  noSkip := rfl
  running := State.resetWith_runState inputs
  atEntry := rfl
  clock := rfl
  count := rfl
  boundary := rfl

/-! ### The constructor -/

/-- A constructed machine is the reset state for the loaded program and the other inputs as given, and there is one
exactly when the inputs are acceptable and every record loads (R148, R151). -/
theorem construct_eq_some {p : RawInputs} {s : State} :
    construct p = some s ↔ p.wellFormed = true ∧ ∃ records, loadRecords p.program = some records ∧
      State.resetWith ⟨records, p.codeBase, p.dmemWords, p.cycleLimit, p.retireLimit⟩ = s := by
  unfold construct
  cases p.wellFormed with
  | false => simp
  | true => cases loadRecords p.program <;> simp

/-- Settles O7: a constructed machine is a reset state, whose pipeline, clock and counters are those of a launch state
and whose instruction memory is the loaded program. -/
theorem resetValuesOfEveryConstructedMachine : Obligations.ResetValuesOfEveryConstructedMachine := by
  intro p s hs
  obtain ⟨-, records, hload, rfl⟩ := construct_eq_some.1 hs
  have hl := State.launched_resetWith ⟨records, p.codeBase, p.dmemWords, p.cycleLimit, p.retireLimit⟩
  exact ⟨hl.atEntry, State.readReg_resetWith _, hl.allReady, rfl, rfl, rfl, hl.flagsValid, hl.clock, hl.count,
    hl.running, hl.noSkip, hl.fetchEmpty, hl.decodeEmpty, hl.executeEmpty, hl.memoryEmpty, hl.writebackEmpty,
    State.read_resetWith_dmem _, rfl, rfl, rfl, rfl, length_of_loadRecords hload, getElem?_of_loadRecords hload⟩

end Sys2Proof.Machine

/-! PROOFS. Decoding instructions: `30_encoding.md` R59 to R67, R69, R71. -/

namespace Sys2Proof

/-- The canonical record of an instruction stands for that instruction (`30_encoding.md` R59 to R67). -/
@[simp] theorem Instr.toInstr_toRecord (i : Instr) : i.toRecord.toInstr = i := by cases i <;> rfl

/-- A word decodes to an instruction exactly when its record stands for that instruction. -/
theorem decode_eq_ok {w : BitVec 64} {i : Instr} :
    decode w = .ok i ↔ ∃ r, decodeRecord w = .ok r ∧ r.toInstr = i := by
  unfold decode
  cases decodeRecord w <;> simp [Except.map]

/-- Settles O1: `decode` undoes `encode` on records, and the canonical record of an instruction stands for it. -/
theorem decodeOfEncodeIsTheInstruction : Obligations.DecodeOfEncodeIsTheInstruction :=
  fun i => decode_eq_ok.2 ⟨i.toRecord, decodeRecord_encodeRecord i.toRecord, i.toInstr_toRecord⟩

/-! ### The bits a format ignores -/

/-- A word that decodes is its record's fields side by side, with some reserved bits (`30_encoding.md` R58). -/
theorem exists_eq_wordOfFields {w : BitVec 64} {r : Record} (h : decodeRecord w = .ok r) :
    ∃ reserved, w =
      wordOfFields (BitVec.ofNat 5 r.opcode.number) (regBits r.rd) (regBits r.rs1) (regBits r.rs2) reserved r.imm := by
  obtain ⟨hop, hrd, hrs1, hrs2, himm⟩ := decodeRecord_eq_ok.1 h
  refine ⟨BitVec.ofNat 12 (w.toNat / 2 ^ 32), BitVec.eq_of_toNat_eq ?_⟩
  have hw := w.isLt
  simp only [wordOfFields, toNat_append_eq_add, BitVec.toNat_ofNat, regBits_toNat, hop, hrd, hrs1, hrs2, himm]
  omega

/-- Under the mask of some fields a word is its record with the fields not read set to 0. -/
theorem and_mask_of_decodeRecord {w : BitVec 64} {r : Record} (h : decodeRecord w = .ok r) (f : FieldsRead) :
    w &&& f.mask = encodeRecord (f.restrict r) := by
  obtain ⟨reserved, hw⟩ := exists_eq_wordOfFields h
  rw [← encodeRecord_and_mask, encodeRecord_eq_wordOfFields, hw]
  simp only [FieldsRead.mask, wordOfFields_and, BitVec.and_zero]

theorem encodeRecord_injective {q r : Record} (h : encodeRecord q = encodeRecord r) : q = r := by
  have hdec := congrArg decodeRecord h
  rwa [decodeRecord_encodeRecord, decodeRecord_encodeRecord, Except.ok.injEq] at hdec

/-- Which fields are read is decided by the opcode alone. -/
theorem fieldsRead_toInstr_congr {q r : Record} (h : q.opcode = r.opcode) :
    q.toInstr.fieldsRead = r.toInstr.fieldsRead := by
  cases hr : r.opcode <;> rw [hr] at h <;> simp only [Record.toInstr, h, hr, Instr.fieldsRead]

/-- The fields not read do not matter to the instruction (`30_encoding.md` R69). -/
theorem toInstr_restrict (r : Record) : (r.toInstr.fieldsRead.restrict r).toInstr = r.toInstr := by
  cases hr : r.opcode <;> simp only [Record.toInstr, hr, Instr.fieldsRead, FieldsRead.restrict, cond_true]

/-- Every format reads the opcode (`30_encoding.md` R58). -/
theorem formatMask_shiftRight (i : Instr) : Machine.formatMask i >>> 59 = BitVec.allOnes 64 >>> 59 := by
  cases i <;> simp only [Machine.formatMask] <;> decide

/-- Under a format's mask the opcode number is as before. -/
theorem and_formatMask_shiftRight (w : BitVec 64) (i : Instr) : (w &&& Machine.formatMask i) >>> 59 = w >>> 59 := by
  rw [BitVec.ushiftRight_and_distrib, formatMask_shiftRight, ← BitVec.ushiftRight_and_distrib, BitVec.and_allOnes]

/-- Settles O3: under the mask both words are encodings of restricted records, so the restricted records are the same
and with them the instruction. -/
theorem ignoredBitsAreDontCare : Obligations.IgnoredBitsAreDontCare := by
  intro v w i hdec hmask
  obtain ⟨r, hr, rfl⟩ := decode_eq_ok.1 hdec
  obtain ⟨q, hq⟩ : ∃ q, decodeRecord v = .ok q := by
    rw [exists_decodeRecord_eq_ok, ← and_formatMask_shiftRight v r.toInstr, hmask, and_formatMask_shiftRight]
    exact exists_decodeRecord_eq_ok.1 ⟨r, hr⟩
  rw [← mask_fieldsRead, and_mask_of_decodeRecord hr] at hmask
  rw [and_mask_of_decodeRecord hq] at hmask
  have hrestrict := encodeRecord_injective hmask
  have hop : q.opcode = r.opcode := (Record.mk.inj hrestrict).1
  refine decode_eq_ok.2 ⟨q, hq, ?_⟩
  rw [← toInstr_restrict q, fieldsRead_toInstr_congr hop, hrestrict, toInstr_restrict]

/-! ### Invalid words, and the words of the examples -/

/-- Settles O4: the record decides which words are invalid, and every record stands for an instruction. -/
theorem reservedOpcodesAreRejectedByName : Obligations.ReservedOpcodesAreRejectedByName := by
  refine fun w => ⟨fun hbad => ?_, fun hok => ?_⟩
  · rw [decode, decodeRecord_of_reserved hbad, Except.map]
  · obtain ⟨r, hr⟩ := exists_decodeRecord_eq_ok.2 hok
    exact ⟨r.toInstr, decode_eq_ok.2 ⟨r, hr, rfl⟩⟩

/-- Settles O5: ten closed words, each decoded by evaluation. -/
theorem exampleWordsDecode : Obligations.ExampleWordsDecode := by
  refine ⟨?_, ?_, ?_, ?_, ?_, ?_, ?_, ?_, ?_, ?_⟩ <;> decide

end Sys2Proof

/-! PROOFS. What the constructor refuses: `70_reset_and_hazards.md` R151. -/

namespace Sys2Proof.Machine

/-- A raw record has a checked form exactly when it is well formed (`30_encoding.md` R69). -/
theorem exists_toRecord_eq_some {r : RawRecord} : (∃ q, r.toRecord = some q) ↔ r.wellFormed = true := by
  simp only [RawRecord.wellFormed, Bool.and_eq_true, decide_eq_true_eq, RawRecord.toRecord]
  cases hop : Opcode.ofNumber r.opcode with
  | none =>
    have := Opcode.ofNumber_eq_none.1 hop
    simp
    omega
  | some op =>
    have := Opcode.ofNumber_eq_some.1 hop ▸ op.number_le
    by_cases hregs : r.rd < 32 ∧ r.rs1 < 32 ∧ r.rs2 < 32
    · simp [hregs, this]
    · simp only [hregs, dif_neg, not_false_eq_true, reduceCtorEq, exists_false, false_iff]
      omega

/-- A program of well-formed records loads. -/
theorem exists_loadRecords_eq_some {raws : List RawRecord} (h : ∀ r ∈ raws, r.wellFormed = true) :
    ∃ records, loadRecords raws = some records := by
  induction raws with
  | nil => exact ⟨[], rfl⟩
  | cons r rs ih =>
    obtain ⟨q, hq⟩ := exists_toRecord_eq_some.2 (h r List.mem_cons_self)
    obtain ⟨qs, hqs⟩ := ih fun r' hr' => h r' (List.mem_cons_of_mem r hr')
    exact ⟨q :: qs, loadRecords_cons_eq_some.2 ⟨q, qs, hq, hqs, rfl⟩⟩

/-- The constructor refuses exactly the inputs that are not well formed. -/
theorem construct_eq_none {p : RawInputs} : construct p = none ↔ p.wellFormed = false := by
  rw [Option.eq_none_iff_forall_ne_some, ← Bool.not_eq_true]
  simp only [ne_eq, construct_eq_some]
  constructor
  · intro hnone hwf
    have hrecords : ∀ r ∈ p.program, r.wellFormed = true := by
      simp only [RawInputs.wellFormed, RawInputs.recordsWellFormed, Bool.and_eq_true, List.all_eq_true] at hwf
      exact hwf.1.1.1.2
    obtain ⟨records, hload⟩ := exists_loadRecords_eq_some hrecords
    exact hnone _ ⟨hwf, records, hload, rfl⟩
  · exact fun hbad s hs => hbad hs.1

/-- What well-formed inputs are, in the spec's words (R151). -/
theorem wellFormed_iff (p : RawInputs) :
    p.wellFormed = true ↔
      p.program.length ≠ 0 ∧ (∀ r ∈ p.program, r.opcode ≤ 25 ∧ r.rd < 32 ∧ r.rs1 < 32 ∧ r.rs2 < 32) ∧
      (4 : Int) ∣ p.codeBase.toInt ∧ p.codeBase.toInt + 4 * (p.program.length : Int) ≤ 2 ^ 31 - 1 ∧
      p.dmemWords ≠ 0 ∧ p.dmemWords ≤ 2 ^ 31 := by
  simp only [RawInputs.wellFormed, RawInputs.programNonempty, RawInputs.recordsWellFormed, RawRecord.wellFormed,
    RawInputs.codeBaseAligned, RawInputs.codeFits, RawInputs.dmemSized, Bool.and_eq_true,
    bne_iff_ne, List.all_eq_true, decide_eq_true_eq, beq_iff_eq, and_assoc, Int.dvd_iff_emod_eq_zero,
    Nat.one_le_iff_ne_zero]
  norm_num [Config.instrWidth]

/-- Settles O6: construction fails exactly when a well-formedness condition does. -/
theorem constructorRefusesExactlyBadInputs : Obligations.ConstructorRefusesExactlyBadInputs := by
  intro p
  rw [construct_eq_none, ← Bool.not_eq_true, wellFormed_iff]
  simp only [not_and_or, not_forall, not_le, not_lt, ne_eq, not_not, exists_prop, gt_iff_lt]

end Sys2Proof.Machine

/-! PROOFS. What every instruction does in each stage, one equation a stage: `40_pipeline_stages.md` R82 to R97. -/

namespace Sys2Proof.Machine

/-! ### Condition codes of a value -/

theorem zeroFlag_eq (v : Word) : zeroFlag v = decide (v.toInt = 0) := rfl
theorem negativeFlag_eq (v : Word) : negativeFlag v = decide (v.toInt < 0) := rfl
theorem positiveFlag_eq (v : Word) : positiveFlag v = decide (v.toInt > 0) := rfl

/-- Exactly one of the three tests of a value holds (`10_state.md` R28). -/
theorem one_flag_of_value (v : Word) :
    (zeroFlag v = true ∧ negativeFlag v = false ∧ positiveFlag v = false) ∨
    (zeroFlag v = false ∧ negativeFlag v = true ∧ positiveFlag v = false) ∨
    (zeroFlag v = false ∧ negativeFlag v = false ∧ positiveFlag v = true) := by
  simp only [zeroFlag_eq, negativeFlag_eq, positiveFlag_eq, decide_eq_true_eq, decide_eq_false_iff_not]
  omega

/-! ### Execute -/

/-- The result a flag writer computes from the latch it is in (`40_pipeline_stages.md` R86); none for the others. -/
def aluResult (i : Instr) (l : Latch) : Option Word :=
  match i with
  | .add _ _ _ => some (addWords l.rs1Value l.rs2Value)
  | .sub _ _ _ | .cmp _ _ => some (subWords l.rs1Value l.rs2Value)
  | .mul _ _ _ => some (mulWords l.rs1Value l.rs2Value)
  | .div _ _ _ => some (divWords l.rs1Value l.rs2Value)
  | .and _ _ _ => some (l.rs1Value &&& l.rs2Value)
  | .or _ _ _ => some (l.rs1Value ||| l.rs2Value)
  | .xor _ _ _ => some (l.rs1Value ^^^ l.rs2Value)
  | .movc _ imm => some imm
  | .addl _ _ imm => some (addWords l.rs1Value imm)
  | .subl _ _ imm | .cml _ imm => some (subWords l.rs1Value imm)
  | .load _ _ _ | .loadp _ _ _ | .store _ _ _ | .storep _ _ _ | .jump _ _ | .jalr _ _ _ => none
  | .bz _ | .bnz _ | .bp _ | .bnp _ | .bn _ | .bnn _ | .halt | .nop => none

/-- The target of a branch whose test came out `taken`. -/
def branchRedirect (taken : Bool) (pc imm : Word) : Option Word := if taken then some (branchTarget pc imm) else none

/-- Where the instruction redirects to, with the condition codes `z n p` (`40_pipeline_stages.md` R90, R91). -/
def redirectOf (i : Instr) (l : Latch) (z n p : Bool) : Option Word :=
  match i with
  | .jump _ imm | .jalr _ _ imm => some (jumpTarget l.rs1Value imm)
  | .bz imm => branchRedirect z l.pc imm
  | .bnz imm => branchRedirect (!z) l.pc imm
  | .bp imm => branchRedirect p l.pc imm
  | .bnp imm => branchRedirect (!p) l.pc imm
  | .bn imm => branchRedirect n l.pc imm
  | .bnn imm => branchRedirect (!n) l.pc imm
  | .add _ _ _ | .sub _ _ _ | .mul _ _ _ | .div _ _ _ | .and _ _ _ | .or _ _ _ | .xor _ _ _ => none
  | .movc _ _ | .addl _ _ _ | .subl _ _ _ | .load _ _ _ | .loadp _ _ _ | .store _ _ _ | .storep _ _ _ => none
  | .halt | .nop | .cmp _ _ | .cml _ _ => none

/-- The latch Execute hands on: result, effective address and incremented base as the opcode computes them
(`40_pipeline_stages.md` R86). -/
def executedLatch (i : Instr) (l : Latch) (z n p : Bool) : Latch :=
  match i with
  | .load _ _ imm => { l with memoryAddress := effectiveAddress l.rs1Value imm }
  | .store _ _ imm => { l with memoryAddress := effectiveAddress l.rs2Value imm }
  | .loadp _ _ imm =>
    { l with memoryAddress := effectiveAddress l.rs1Value imm, baseNext := nextBase l.rs1Value }
  | .storep _ _ imm =>
    { l with memoryAddress := effectiveAddress l.rs2Value imm, baseNext := nextBase l.rs2Value }
  | .jalr _ _ _ => { l with result := nextPc l.pc }
  | i => { l with result := ((aluResult i l).or (redirectOf i l z n p)).getD l.result }

/-- DIV with divisor 0 (`41_arithmetic.md` R104). -/
def dividesByZero (i : Instr) (l : Latch) : Bool :=
  match i with
  | .div _ _ _ => l.rs2Value == 0#32
  | _ => false

/-- The state Execute leaves behind an instruction other than HALT that does not fault: the condition codes of a flag
writer, `flags_valid` cleared by a producer, the squash of a redirect, the latch handed on (R86 to R91). -/
def State.executed (s : State) (i : Instr) : State :=
  let target := redirectOf i s.lE s.z s.n s.p
  { s with
    pc := target.getD s.pc
    z := (aluResult i s.lE).elim s.z zeroFlag
    n := (aluResult i s.lE).elim s.n negativeFlag
    p := (aluResult i s.lE).elim s.p positiveFlag
    flagsValid := s.flagsValid && !isFlagProducer i
    fSkip := s.fSkip || target.isSome
    lF := target.elim s.lF fun _ => Latch.bubble
    lD := target.elim s.lD fun _ => Latch.bubble
    lM := (executedLatch i s.lE s.z s.n s.p).payload
    lE := Latch.bubble }

theorem aluResult_isSome (i : Instr) (l : Latch) : (aluResult i l).isSome = isFlagWriter i := by cases i <;> rfl

/-- A producer is a flag writer (`40_pipeline_stages.md` R78). -/
theorem isFlagWriter_of_isFlagProducer {i : Instr} (h : isFlagProducer i = true) : isFlagWriter i = true := by
  revert h
  cases i <;> simp [isFlagProducer, isFlagWriter]

/-- What Execute does with a branch, as one state. -/
theorem executeBranch_eq (taken : Bool) (imm : Word) (s : State) :
    executeBranch taken imm s = .next { s with
      pc := (branchRedirect taken s.lE.pc imm).getD s.pc
      fSkip := s.fSkip || (branchRedirect taken s.lE.pc imm).isSome
      lF := (branchRedirect taken s.lE.pc imm).elim s.lF fun _ => Latch.bubble
      lD := (branchRedirect taken s.lE.pc imm).elim s.lD fun _ => Latch.bubble
      lM := { s.lE with result := (branchRedirect taken s.lE.pc imm).getD s.lE.result }.payload
      lE := Latch.bubble } := by
  cases taken <;> simp [executeBranch, executeJump, branchRedirect, State.redirect, State.toMemory]

/-- What Execute does with every instruction but HALT (`40_pipeline_stages.md` R86 to R91). -/
theorem exec_execute_eq {i : Instr} (hi : i ≠ .halt) {s : State} (h : s.phase = .execute) :
    exec i s = if dividesByZero i s.lE then .fault .divideByZero else .next (s.executed i) := by
  cases i
  case halt => exact absurd rfl hi
  case div d a b =>
    by_cases hz : s.lE.rs2Value = 0#32
    · simp [exec, execDiv, h, hz, dividesByZero, raise]
    · simp [exec, execDiv, h, hz, dividesByZero, executeProducer, State.executed, aluResult, redirectOf,
        isFlagProducer, executedLatch, State.toMemory, State.produceFlags]
  case add | sub | mul | addl | subl | cmp | cml =>
    simp [exec, execAdd, execSub, execMul, execAddl, execSubl, execCmp, execCml, h, dividesByZero, executeProducer,
      State.executed, aluResult, redirectOf, isFlagProducer, executedLatch, State.toMemory, State.produceFlags]
  case and | or | xor | movc =>
    simp [exec, execAnd, execOr, execXor, execMovc, h, dividesByZero, executeWriter, State.executed, aluResult,
      redirectOf, isFlagProducer, executedLatch, State.toMemory, State.setZNP]
  case jump | jalr =>
    simp [exec, execJump, execJalr, h, dividesByZero, executeJump, State.executed, aluResult, redirectOf,
      isFlagProducer, executedLatch, State.toMemory, State.redirect]
  case load | loadp | store | storep =>
    simp [exec, execLoad, execLoadp, execStore, execStorep, h, dividesByZero, executeAddress, executeAddressInc,
      State.executed, aluResult, redirectOf, isFlagProducer, executedLatch, State.toMemory]
  case nop =>
    simp [exec, execNop, h, dividesByZero, executeNothing, State.executed, aluResult, redirectOf, isFlagProducer,
      executedLatch, State.toMemory]
  case bz | bnz | bp | bnp | bn | bnn =>
    simp [exec, execBz, execBnz, execBp, execBnp, execBn, execBnn, h, dividesByZero, executeBranch_eq, State.executed,
      aluResult, redirectOf, isFlagProducer, executedLatch]

/-! ### Memory -/

/-- Whether the instruction reads data memory. -/
def isLoad (i : Instr) : Bool := isMemoryOp i && !isStore i

/-- The word Memory puts into `result`: the loaded one, or the one carried (`40_pipeline_stages.md` R92). -/
def State.memoryResult (s : State) (i : Instr) : Word :=
  if isLoad i then s.dataWord s.lM.memoryAddress else s.lM.result

/-- The state Memory leaves behind an instruction other than HALT that does not fault (`40_pipeline_stages.md` R92). -/
def State.accessed (s : State) (i : Instr) : State :=
  { s with
    dmem := if isStore i then Memory.write s.dmem s.lM.memoryAddress.toInt.toNat s.lM.rs1Value else s.dmem
    lW := { s.lM with result := s.memoryResult i }.payload
    lM := Latch.bubble }

/-- The instruction accesses data memory at an address outside it (`60_exceptions.md` R138). -/
def State.misses (s : State) (i : Instr) : Bool := isMemoryOp i && !s.dataAddressOk s.lM.memoryAddress

theorem isMemoryOp_of_isStore {i : Instr} (h : isStore i = true) : isMemoryOp i = true := by
  revert h
  cases i <;> simp [isStore, isMemoryOp]

/-- What Memory does with every instruction but HALT (`40_pipeline_stages.md` R92). -/
theorem exec_memory_eq {i : Instr} (hi : i ≠ .halt) {s : State} (h : s.phase = .memory) :
    exec i s = if s.misses i then .fault .dataAddressOutOfRange else .next (s.accessed i) := by
  cases hm : isMemoryOp i with
  | false =>
    have hst : isStore i = false := by
      by_contra hst
      rw [isMemoryOp_of_isStore (by simpa using hst)] at hm
      cases hm
    rw [exec_memory_pass hi hm h]
    simp [State.misses, hm, State.accessed, State.memoryResult, isLoad, hst, State.toWriteback]
  | true =>
    rw [exec_memory_access hm h]
    cases hst : isStore i
    · obtain ⟨hok, heq⟩ | ⟨hbad, heq⟩ := memoryLoad_cases s
      · simp [heq, State.misses, hm, hok, State.accessed, State.memoryResult, isLoad, hst, State.toWriteback]
      · simp [heq, State.misses, hm, hbad]
    · obtain ⟨hok, heq⟩ | ⟨hbad, heq⟩ := memoryStore_cases s
      · simp [heq, State.misses, hm, hok, State.accessed, State.memoryResult, isLoad, hst, State.toWriteback,
          State.putWord]
      · simp [heq, State.misses, hm, hbad]

/-! ### Writeback -/

/-- The register file after the commit of an instruction from its latch (`40_pipeline_stages.md` R93). -/
def commitRegs (i : Instr) (l : Latch) (x : Vector Word 32) : Vector Word 32 :=
  match i with
  | .add d _ _ | .sub d _ _ | .mul d _ _ | .div d _ _ | .and d _ _ | .or d _ _ | .xor d _ _ => x.set d.val l.result
  | .movc d _ | .addl d _ _ | .subl d _ _ | .load d _ _ | .jalr d _ _ => x.set d.val l.result
  | .loadp d a _ => (x.set a.val l.baseNext).set d.val l.result
  | .storep _ b _ => x.set b.val l.baseNext
  | .store _ _ _ | .jump _ _ | .bz _ | .bnz _ | .bp _ | .bnp _ | .bn _ | .bnn _ => x
  | .halt | .nop | .cmp _ _ | .cml _ _ => x

/-- The state Writeback leaves behind an instruction other than HALT (`40_pipeline_stages.md` R93). -/
def State.committed (s : State) (i : Instr) : State := State.retire { s with x := commitRegs i s.lW s.x } i

/-- What Writeback does with every instruction but HALT (`40_pipeline_stages.md` R93). -/
theorem exec_writeback_eq {i : Instr} (hi : i ≠ .halt) {s : State} (h : s.phase = .writeback) :
    exec i s = .next (s.committed i) := by
  cases i
  case halt => exact absurd rfl hi
  all_goals
    simp only [exec, execAdd, execSub, execMul, execDiv, execAnd, execOr, execXor, execMovc, execAddl, execSubl,
      execLoad, execLoadp, execStore, execStorep, execJump, execJalr, execBz, execBnz, execBp, execBnp, execBn,
      execBnn, execNop, execCmp, execCml, h]
    rfl

/-- A register that is no destination keeps its value. -/
theorem commitRegs_of_not_mem {i : Instr} {r : Reg} (hr : r ∉ destsOf i) (l : Latch) (x : Vector Word 32) :
    (commitRegs i l x)[r.val] = x[r.val] := by
  cases i <;> simp only [destsOf, List.mem_cons, List.not_mem_nil, or_false, not_or, not_false_eq_true,
    Fin.ext_iff] at hr <;> simp only [commitRegs, Vector.getElem_set] <;> grind

end Sys2Proof.Machine

/-! PROOFS. The stage actions of the instructions: `40_pipeline_stages.md` R79 to R97. -/

namespace Sys2Proof.Machine

/-! ### Fetch -/

/-- Settles O18: Fetch handles every instruction alike, and its action has one case for each state of `L_F`, the
record at `PC` and `L_D`. -/
theorem fetchActionOfEveryInstruction : Obligations.FetchActionOfEveryInstruction := by
  intro i s h
  rw [exec_fetch i h]
  refine ⟨fun r he hr hs => ?_, fun r he hr hs => ?_, fetchAction_of_iFetch_none, fun he hs => ?_, fun he hs => ?_⟩
  · simp [fetchAction, he, hr, hs, State.pushFetch, State.fillFetch, nextPc, Config.instrWidth]
  · simp [fetchAction, he, hr, hs, State.pushFetch, State.fillFetch, nextPc, Config.instrWidth]
  · simp [fetchAction, he, hs, State.pushFetch, Latch.payload]
  · simp [fetchAction, he, hs, State.pushFetch]

/-! ### Decode -/

theorem executeHolds_eq_false {s : State} (h : ¬ (s.lE.empty = false ∧ s.lE.stalled = true)) :
    s.executeHolds = false := by
  simpa [State.executeHolds] using h

/-- An instruction other than HALT that passes the test is dispatched (`40_pipeline_stages.md` R82). -/
theorem exec_decode_dispatch {i : Instr} (hi : i ≠ .halt) {s : State} (h : s.phase = .decode)
    (hE : s.executeHolds = false) (hc : s.canDispatch i = true) : exec i s = .next (s.dispatched i) := by
  rw [exec_decode hi h, dispatch, hE, hc]
  rfl

/-- An instruction that Execute holds or that fails the test stays, HALT included (`40_pipeline_stages.md` R83, R85). -/
theorem exec_decode_stall {i : Instr} {s : State} (h : s.phase = .decode)
    (hstall : s.executeHolds = true ∨ s.canDispatch i = false) : exec i s = .next s.stallDecode := by
  by_cases hi : i = .halt
  · subst hi
    rw [exec_decode_halt h, dispatchHalt]
    obtain hE | hc := hstall <;> simp_all
  · rw [exec_decode hi h, dispatch]
    obtain hE | hc := hstall <;> simp_all

/-- HALT is dispatched at once (`40_pipeline_stages.md` R84). -/
theorem exec_decode_dispatchHalt {s : State} (h : s.phase = .decode) (hE : s.executeHolds = false) :
    exec .halt s = .next (s.dispatchedHalt .halt) := by
  rw [exec_decode_halt h, dispatchHalt, hE]
  rfl

/-- Settles O19: the readiness test passes, and each field of the dispatched state is one of its rules. -/
theorem decodeDispatchesWhenReady : Obligations.DecodeDispatchesWhenReady := by
  intro i s h hi hE hready hflags
  have hc : s.canDispatch i = true := (canDispatch_iff s i).2 ⟨hready, hflags⟩
  refine ⟨s.dispatched i, exec_decode_dispatch hi h (executeHolds_eq_false hE) hc, rfl, rfl, fun r hr => ?_,
    fun hr => ?_, fun r hr => ?_, fun hr => ?_, fun r hr => ?_, fun r hr => ?_, rfl⟩
  · simp [State.readOperands, hr]
  · simp [State.readOperands, hr]
  · simp [State.readOperands, hr]
  · simp [State.readOperands, hr]
  · simp [State.isReady_dispatched, hr]
  · simp [State.isReady_dispatched, hr]

/-- Settles O20: each of the three hypotheses is one way to fail the test. -/
theorem decodeStallsWhenNotReady : Obligations.DecodeStallsWhenNotReady := by
  intro i s h hstall
  refine exec_decode_stall h ?_
  rw [← Bool.not_eq_true, canDispatch_iff]
  obtain ⟨he, hs⟩ | ⟨r, hr, hnot⟩ | ⟨hb, hf⟩ := hstall
  · exact .inl (by simp [State.executeHolds, he, hs])
  · exact .inr fun hready => by simp [hready.1 r hr] at hnot
  · exact .inr fun hready => by simp [hready.2 hb] at hf

/-- Settles O21: HALT has no source, so it is dispatched. -/
theorem haltInDecodeShutsFetchAndDecode : Obligations.HaltInDecodeShutsFetchAndDecode :=
  fun _ h hE => exec_decode_dispatchHalt h (executeHolds_eq_false hE)

/-! ### Execute -/

/-- Rounding toward zero, as a sign and a quotient of magnitudes (`41_arithmetic.md` R104). -/
theorem tdiv_eq_sign_mul (u v : Int) : u.tdiv v = u.sign * v.sign * ((u.natAbs / v.natAbs : Nat) : Int) := by
  rw [← Int.sign_mul_natAbs (u.tdiv v), Int.sign_tdiv, Int.natAbs_tdiv]
  split
  next hlt => simp [Nat.div_eq_of_lt hlt]
  next => rfl

/-- What Execute leaves behind a flag writer (`40_pipeline_stages.md` R87). -/
theorem State.executed_of_aluResult {s : State} {i : Instr} {r : Word} (hr : aluResult i s.lE = some r) :
    s.executed i = { s with
      lM := { s.lE with result := r }.payload, lE := Latch.bubble
      z := zeroFlag r, n := negativeFlag r, p := positiveFlag r, flagsValid := s.flagsValid && !isFlagProducer i } := by
  have htarget : redirectOf i s.lE s.z s.n s.p = none := by
    revert hr
    cases i <;> simp [aluResult, redirectOf]
  have hlatch : executedLatch i s.lE s.z s.n s.p = { s.lE with result := r } := by
    cases i <;> simp_all [executedLatch, aluResult]
  simp [State.executed, hr, htarget, hlatch]

/-- What Execute leaves behind a redirect (`40_pipeline_stages.md` R89). -/
theorem State.executed_of_redirect {s : State} {i : Instr} {t : Word}
    (ht : redirectOf i s.lE s.z s.n s.p = some t) :
    s.executed i = { s with
      pc := t, lD := Latch.bubble, lF := Latch.bubble, fSkip := true
      lM := (executedLatch i s.lE s.z s.n s.p).payload, lE := Latch.bubble } := by
  have hr : aluResult i s.lE = none := by
    revert ht
    cases i <;> simp [redirectOf, aluResult]
  have hp : isFlagProducer i = false := by
    revert ht
    cases i <;> simp [redirectOf, isFlagProducer]
  simp [State.executed, hr, ht, hp]

/-- What Execute leaves behind an instruction that neither writes condition codes nor redirects. -/
theorem State.executed_of_onward {s : State} {i : Instr} (hr : aluResult i s.lE = none)
    (ht : redirectOf i s.lE s.z s.n s.p = none) :
    s.executed i = { s with lM := (executedLatch i s.lE s.z s.n s.p).payload, lE := Latch.bubble } := by
  have hp : isFlagProducer i = false := by
    by_contra hp
    have := isFlagWriter_of_isFlagProducer (by simpa using hp)
    rw [← aluResult_isSome i s.lE, hr] at this
    cases this
  simp [State.executed, hr, ht, hp]

/-- A flag writer with result `r` in Execute. -/
theorem exec_flagWriter {i : Instr} {s : State} {r : Word} (h : s.phase = .execute)
    (hr : aluResult i s.lE = some r) (hdiv : dividesByZero i s.lE = false) :
    exec i s = .next { s with
      lM := { s.lE with result := r }.payload, lE := Latch.bubble
      z := zeroFlag r, n := negativeFlag r, p := positiveFlag r
      flagsValid := s.flagsValid && !isFlagProducer i } := by
  have hi : i ≠ .halt := by rintro rfl; cases hr
  rw [exec_execute_eq hi h, hdiv, State.executed_of_aluResult hr]
  rfl

/-- A flag producer with result `r` in Execute clears `flags_valid`. -/
theorem exec_producer {i : Instr} {s : State} {r : Word} (h : s.phase = .execute) (hp : isFlagProducer i = true)
    (hr : aluResult i s.lE = some r) (hdiv : dividesByZero i s.lE = false) :
    exec i s = .next { s with
      lM := { s.lE with result := r }.payload, lE := Latch.bubble
      z := zeroFlag r, n := negativeFlag r, p := positiveFlag r, flagsValid := false } := by
  rw [exec_flagWriter h hr hdiv, hp, Bool.not_true, Bool.and_false]

/-- A flag writer that is no producer keeps `flags_valid`. -/
theorem exec_plainWriter {i : Instr} {s : State} {r : Word} (h : s.phase = .execute) (hp : isFlagProducer i = false)
    (hr : aluResult i s.lE = some r) (hdiv : dividesByZero i s.lE = false) :
    exec i s = .next { s with
      lM := { s.lE with result := r }.payload, lE := Latch.bubble
      z := zeroFlag r, n := negativeFlag r, p := positiveFlag r } := by
  rw [exec_flagWriter h hr hdiv, hp, Bool.not_false, Bool.and_true]

/-- A redirect to `t` in Execute. -/
theorem exec_redirect {i : Instr} {s : State} {t : Word} (h : s.phase = .execute)
    (ht : redirectOf i s.lE s.z s.n s.p = some t) :
    exec i s = .next { s with
      pc := t, lD := Latch.bubble, lF := Latch.bubble, fSkip := true
      lM := (executedLatch i s.lE s.z s.n s.p).payload, lE := Latch.bubble } := by
  have hi : i ≠ .halt := by rintro rfl; cases ht
  have hdiv : dividesByZero i s.lE = false := by
    revert ht
    cases i <;> simp [redirectOf, dividesByZero]
  rw [exec_execute_eq hi h, hdiv, State.executed_of_redirect ht]
  rfl

/-- An instruction that neither writes condition codes nor redirects only goes on. -/
theorem exec_onward {i : Instr} {s : State} (h : s.phase = .execute) (hi : i ≠ .halt)
    (hr : aluResult i s.lE = none) (ht : redirectOf i s.lE s.z s.n s.p = none) :
    exec i s = .next { s with lM := (executedLatch i s.lE s.z s.n s.p).payload, lE := Latch.bubble } := by
  have hdiv : dividesByZero i s.lE = false := by
    revert hr
    cases i <;> simp [aluResult, dividesByZero]
  rw [exec_execute_eq hi h, hdiv, State.executed_of_onward hr ht]
  rfl

/-- Settles O22: each of the eight is a producer with its own result; DIV faults exactly at divisor 0. -/
theorem flagProducersInExecute : Obligations.FlagProducersInExecute := by
  intro s d a b imm h u v done
  refine ⟨exec_producer h rfl rfl rfl, exec_producer h rfl rfl rfl, exec_producer h rfl rfl rfl, fun hv => ?_,
    fun hv => ?_, exec_producer h rfl rfl rfl, exec_producer h rfl rfl rfl, exec_producer h rfl rfl rfl,
    exec_producer h rfl rfl rfl⟩
  · have hdiv : dividesByZero (.div d a b) s.lE = false := by
      simpa [dividesByZero, ← BitVec.toInt_inj] using hv
    rw [← tdiv_eq_sign_mul]
    exact exec_producer h rfl rfl hdiv
  · have hdiv : dividesByZero (.div d a b) s.lE = true := by
      simpa [dividesByZero, ← BitVec.toInt_inj] using hv
    rw [exec_execute_eq Instr.noConfusion h, hdiv, if_pos rfl]

/-- Settles O23: each of the four writes its own result; the bits are those of the bitwise operators. -/
theorem plainFlagWritersInExecute : Obligations.PlainFlagWritersInExecute := by
  intro s d a b imm h done
  exact ⟨s.lE.rs1Value &&& s.lE.rs2Value, s.lE.rs1Value ||| s.lE.rs2Value, s.lE.rs1Value ^^^ s.lE.rs2Value,
    exec_plainWriter h rfl rfl rfl, exec_plainWriter h rfl rfl rfl,
    exec_plainWriter h rfl rfl rfl, fun _ => BitVec.getLsbD_and, fun _ => BitVec.getLsbD_or, fun _ => BitVec.getLsbD_xor,
    exec_plainWriter h rfl rfl rfl⟩

/-- Settles O24: the four only go on, with the address and the base in their latch. -/
theorem addressesInExecute : Obligations.AddressesInExecute := by
  intro s d a b imm h base1 base2
  exact ⟨exec_onward h Instr.noConfusion rfl rfl, exec_onward h Instr.noConfusion rfl rfl,
    exec_onward h Instr.noConfusion rfl rfl, exec_onward h Instr.noConfusion rfl rfl⟩

/-- A branch whose flag test `test` holds, in Execute. -/
theorem exec_branch_taken {i : Instr} {test : Bool} {imm : Word} {s : State} (h : s.phase = .execute)
    (ht : redirectOf i s.lE s.z s.n s.p = branchRedirect test s.lE.pc imm)
    (hl : executedLatch i s.lE s.z s.n s.p =
      { s.lE with result := (branchRedirect test s.lE.pc imm).getD s.lE.result }) (htest : test = true) :
    exec i s = .next { s with
      pc := branchTarget s.lE.pc imm, lD := Latch.bubble, lF := Latch.bubble, fSkip := true
      lM := { s.lE with result := branchTarget s.lE.pc imm }.payload, lE := Latch.bubble } := by
  subst htest
  rw [exec_redirect h ht, hl]
  rfl

/-- A branch whose flag test `test` fails, in Execute. -/
theorem exec_branch_notTaken {i : Instr} {test : Bool} {imm : Word} {s : State} (h : s.phase = .execute)
    (hi : i ≠ .halt) (hr : aluResult i s.lE = none)
    (ht : redirectOf i s.lE s.z s.n s.p = branchRedirect test s.lE.pc imm)
    (hl : executedLatch i s.lE s.z s.n s.p =
      { s.lE with result := (branchRedirect test s.lE.pc imm).getD s.lE.result }) (htest : test = false) :
    exec i s = .next { s with lM := s.lE.payload, lE := Latch.bubble } := by
  subst htest
  rw [exec_onward h hi hr ht, hl]
  rfl

/-- Settles O25: jumps redirect, and a branch redirects or only goes on as its flag test says. -/
theorem controlTransfersInExecute : Obligations.ControlTransfersInExecute := by
  intro s d a imm h redirected onward j b
  have neg {c : Bool} (hc : c = true) : (!c) = false := by rw [hc, Bool.not_true]
  have pos {c : Bool} (hc : c = false) : (!c) = true := by rw [hc, Bool.not_false]
  refine ⟨exec_redirect h rfl, exec_redirect h rfl, fun hz => ⟨?_, ?_⟩, fun hz => ⟨?_, ?_⟩, fun hp => ⟨?_, ?_⟩,
    fun hp => ⟨?_, ?_⟩, fun hn => ⟨?_, ?_⟩, fun hn => ⟨?_, ?_⟩⟩
  · exact exec_branch_taken h rfl rfl hz
  · exact exec_branch_notTaken h Instr.noConfusion rfl rfl rfl (neg hz)
  · exact exec_branch_notTaken h Instr.noConfusion rfl rfl rfl hz
  · exact exec_branch_taken h rfl rfl (pos hz)
  · exact exec_branch_taken h rfl rfl hp
  · exact exec_branch_notTaken h Instr.noConfusion rfl rfl rfl (neg hp)
  · exact exec_branch_notTaken h Instr.noConfusion rfl rfl rfl hp
  · exact exec_branch_taken h rfl rfl (pos hp)
  · exact exec_branch_taken h rfl rfl hn
  · exact exec_branch_notTaken h Instr.noConfusion rfl rfl rfl (neg hn)
  · exact exec_branch_notTaken h Instr.noConfusion rfl rfl rfl hn
  · exact exec_branch_taken h rfl rfl (pos hn)

/-! ### Memory -/

/-- Settles O27: an instruction that makes no access is passed on. -/
theorem memoryPassesOthersThrough : Obligations.MemoryPassesOthersThrough :=
  fun _ _ h hm hi => exec_memory_pass hi hm h

/-- A memory instruction inside data memory makes its access. -/
theorem exec_memory_hit {i : Instr} (hi : i ≠ .halt) {s : State} (h : s.phase = .memory)
    (hok : s.dataAddressOk s.lM.memoryAddress = true) : exec i s = .next (s.accessed i) := by
  rw [exec_memory_eq hi h, State.misses, hok, Bool.not_true, Bool.and_false]
  rfl

/-- A memory instruction outside data memory faults. -/
theorem exec_memory_miss {i : Instr} (hm : isMemoryOp i = true) {s : State} (h : s.phase = .memory)
    (hbad : s.dataAddressOk s.lM.memoryAddress = false) : exec i s = .fault .dataAddressOutOfRange := by
  have hi : i ≠ .halt := by rintro rfl; cases hm
  rw [exec_memory_eq hi h, State.misses, hbad, hm]
  rfl

/-- Settles O28: each of the four makes its access, a load of the word there, a store of `rs1`; or faults. -/
theorem accessesInMemory : Obligations.AccessesInMemory := by
  intro s d a b imm h hwf addr
  rw [← s.dataAddressOk_iff]
  refine ⟨fun hok => ⟨⟨?_, ?_⟩, s.accessed (.store a b imm), ?_, ?_, rfl, ?_, fun k hk => ?_⟩, fun hbad => ?_⟩
  · exact exec_memory_hit Instr.noConfusion h hok
  · exact exec_memory_hit Instr.noConfusion h hok
  · exact exec_memory_hit Instr.noConfusion h hok
  · exact exec_memory_hit Instr.noConfusion h hok
  · exact Memory.read_write_self hwf _ _
  · exact Memory.read_write_of_ne _ _ hk
  · rw [Bool.not_eq_true] at hbad
    exact ⟨exec_memory_miss rfl h hbad, exec_memory_miss rfl h hbad, exec_memory_miss rfl h hbad,
      exec_memory_miss rfl h hbad⟩

/-! ### Writeback -/

/-- The one destination of an instruction other than STOREP gets the result (`40_pipeline_stages.md` R93). -/
theorem commitRegs_of_dest {i : Instr} {d : Reg} (hd : destsOf i = [d])
    (hi : ∀ (a b : Reg) (imm : Word), i ≠ .storep a b imm) (l : Latch) (x : Vector Word 32) :
    commitRegs i l x = x.set d.val l.result := by
  cases i <;> simp_all [destsOf, commitRegs]

/-- LOADP writes the loaded word to `rd`, and the incremented base to `rs1` unless it is `rd`. -/
theorem readReg_committed_loadp (s : State) (d a : Reg) (imm : Word) :
    (s.committed (.loadp d a imm)).readReg d = s.lW.result ∧
      (a ≠ d → (s.committed (.loadp d a imm)).readReg a = s.lW.baseNext) :=
  ⟨State.readReg_writeReg_self (s.writeReg a s.lW.baseNext) d _,
    fun had => (State.readReg_writeReg_of_ne (s.writeReg a s.lW.baseNext) d a _ had).trans (State.readReg_writeReg_self s a _)⟩

/-- A commit makes `flags_valid` true only by a producer with none behind it (`40_pipeline_stages.md` R95). -/
theorem State.flagsValid_committed (s : State) (i : Instr) :
    (s.committed i).flagsValid = (s.flagsValid || (isFlagProducer i && !s.lE.isProducer && !s.lM.isProducer)) := by
  simp only [State.committed, State.retire_flagsValid]
  cases s.flagsValid <;> cases isFlagProducer i <;> cases s.lE.isProducer <;> cases s.lM.isProducer <;> rfl

/-- Settles O29: the committed state, rule by rule. -/
theorem writebackCommits : Obligations.WritebackCommits := by
  intro i s h hi
  refine ⟨s.committed i, exec_writeback_eq hi h, ?_, ?_, fun d hd hst => ?_, fun r hr => commitRegs_of_not_mem hr _ _,
    fun r hr => ?_, fun r hr => ?_, s.flagsValid_committed i, rfl⟩
  · rintro d a imm rfl
    exact readReg_committed_loadp s d a imm
  · rintro a b imm rfl
    exact Vector.getElem_set_self _
  · simp only [State.committed, State.readReg, State.retire_x, commitRegs_of_dest hd hst]
    exact Vector.getElem_set_self _
  · exact (State.isReady_retire _ i r).trans (if_pos hr)
  · exact (State.isReady_retire _ i r).trans (if_neg hr)

/-! ### HALT and NOP -/

/-- What Writeback does with HALT (`40_pipeline_stages.md` R93, R96): HALT has no destination and is no producer. -/
theorem exec_writeback_halt_eq {s : State} (h : s.phase = .writeback) :
    exec .halt s = .next { s with icount := s.icount + 1, lW := Latch.bubble, runState := .halted } := by
  rw [exec_writeback_halt h]
  rfl

/-- Settles O26: each stage's equation for HALT and for NOP. -/
theorem haltAndNopBehindDecode : Obligations.HaltAndNopBehindDecode := by
  refine fun s => ⟨fun h => ⟨exec_execute_halt h, exec_onward h Instr.noConfusion rfl rfl⟩,
    fun h => ⟨exec_memory_halt h, exec_memory_pass Instr.noConfusion rfl h⟩,
    fun h => ⟨exec_writeback_halt_eq h, exec_writeback_eq Instr.noConfusion h⟩⟩

end Sys2Proof.Machine

/-! PROOFS. What each stage function and a step can do: `40_pipeline_stages.md` R72 to R74, `60_exceptions.md` R137. -/

namespace Sys2Proof.Machine

/-! ### The stage functions -/

/-- A stage function on an occupant is its meaning in that phase, the phase set back. -/
theorem runStage_of_next {st : Stage} {i : Instr} {s u t : State} (h : exec i (s.during st) = .next u)
    (ht : u.during .fetch = t) : runStage st (some i) s = .next t := by
  rw [runStage, h, ← ht]
  rfl

theorem runStage_of_fault {st : Stage} {i : Instr} {s : State} {c : Fault} (h : exec i (s.during st) = .fault c) :
    runStage st (some i) s = .fault c := by
  rw [runStage, h]
  rfl

/-- The state a committed HALT leaves (`40_pipeline_stages.md` R72, R93). -/
def State.haltCommitted (s : State) : State :=
  { s with icount := s.icount + 1, lW := Latch.bubble, runState := .halted, phase := .fetch }

/-- What Writeback can do. -/
theorem writebackStage_cases (s : State) :
    (s.lW.active = none ∧ writebackStage s = .next s) ∨
    (s.lW.active = some .halt ∧ writebackStage s = .next s.haltCommitted) ∨
    (∃ i, i ≠ .halt ∧ s.lW.active = some i ∧ writebackStage s = .next ((s.committed i).during .fetch)) := by
  unfold writebackStage
  cases hact : s.lW.active with
  | none => exact .inl ⟨rfl, rfl⟩
  | some i =>
    by_cases hi : i = .halt
    · subst hi
      exact .inr (.inl ⟨rfl, runStage_of_next (exec_writeback_halt_eq rfl) rfl⟩)
    · exact .inr (.inr ⟨i, hi, rfl, runStage_of_next (exec_writeback_eq hi rfl) rfl⟩)

/-- The state HALT leaves behind Memory (`40_pipeline_stages.md` R92, R97). -/
def State.haltAccessed (s : State) : State :=
  { s with lW := s.lM.payload, lM := { s.lM with interrupted := true }, phase := .fetch }

/-- What Memory can do. -/
theorem memoryStage_cases (s : State) :
    (s.lM.active = none ∧ memoryStage s = .next s) ∨
    (s.lM.active = some .halt ∧ memoryStage s = .next s.haltAccessed) ∨
    (∃ i, i ≠ .halt ∧ s.lM.active = some i ∧ s.misses i = false ∧
      memoryStage s = .next ((s.accessed i).during .fetch)) ∨
    (∃ i, s.lM.active = some i ∧ s.misses i = true ∧ memoryStage s = .fault .dataAddressOutOfRange) := by
  unfold memoryStage
  cases hact : s.lM.active with
  | none => exact .inl ⟨rfl, rfl⟩
  | some i =>
    by_cases hi : i = .halt
    · subst hi
      exact .inr (.inl ⟨rfl, runStage_of_next (exec_memory_halt rfl) rfl⟩)
    · have hexec := exec_memory_eq hi (s := s.during .memory) rfl
      cases hmiss : s.misses i
      · exact .inr (.inr (.inl ⟨i, hi, rfl, hmiss, runStage_of_next (hexec.trans (if_neg (ne_true_of_eq_false hmiss))) rfl⟩))
      · exact .inr (.inr (.inr ⟨i, rfl, hmiss, runStage_of_fault (hexec.trans (if_pos hmiss))⟩))

/-- The state HALT leaves behind Execute (`40_pipeline_stages.md` R86, R97). -/
def State.haltExecuted (s : State) : State :=
  { s with lM := s.lE.payload, lE := { s.lE with interrupted := true }, phase := .fetch }

/-- What Execute can do. -/
theorem executeStage_cases (s : State) :
    (s.executing = none ∧ executeStage s = .next s) ∨
    (s.executing = some .halt ∧ executeStage s = .next s.haltExecuted) ∨
    (∃ i, i ≠ .halt ∧ s.executing = some i ∧ dividesByZero i s.lE = false ∧
      executeStage s = .next ((s.executed i).during .fetch)) ∨
    (∃ i, s.executing = some i ∧ dividesByZero i s.lE = true ∧ executeStage s = .fault .divideByZero) := by
  unfold executeStage
  rw [← State.executing]
  cases hact : s.executing with
  | none => exact .inl ⟨rfl, rfl⟩
  | some i =>
    by_cases hi : i = .halt
    · subst hi
      exact .inr (.inl ⟨rfl, runStage_of_next (exec_execute_halt rfl) rfl⟩)
    · have hexec := exec_execute_eq hi (s := s.during .execute) rfl
      cases hdiv : dividesByZero i s.lE
      · exact .inr (.inr (.inl ⟨i, hi, rfl, hdiv, runStage_of_next (hexec.trans (if_neg (ne_true_of_eq_false hdiv))) rfl⟩))
      · exact .inr (.inr (.inr ⟨i, rfl, hdiv, runStage_of_fault (hexec.trans (if_pos hdiv))⟩))

/-- What Decode can do. -/
theorem decodeStage_cases (s : State) :
    (s.lD.active = none ∧ decodeStage s = .next s) ∨
    (∃ i, s.lD.active = some i ∧ (s.executeHolds = true ∨ s.canDispatch i = false) ∧
      decodeStage s = .next (s.stallDecode.during .fetch)) ∨
    (s.lD.active = some .halt ∧ s.executeHolds = false ∧
      decodeStage s = .next ((s.dispatchedHalt .halt).during .fetch)) ∨
    (∃ i, i ≠ .halt ∧ s.lD.active = some i ∧ s.executeHolds = false ∧ s.canDispatch i = true ∧
      decodeStage s = .next ((s.dispatched i).during .fetch)) := by
  unfold decodeStage
  cases hact : s.lD.active with
  | none => exact .inl ⟨rfl, rfl⟩
  | some i =>
    by_cases hstall : s.executeHolds = true ∨ s.canDispatch i = false
    · exact .inr (.inl ⟨i, rfl, hstall, runStage_of_next (exec_decode_stall (s := s.during .decode) rfl hstall) rfl⟩)
    · simp only [not_or, Bool.not_eq_true, Bool.not_eq_false] at hstall
      obtain ⟨hE, hc⟩ := hstall
      by_cases hi : i = .halt
      · subst hi
        exact .inr (.inr (.inl ⟨rfl, hE, runStage_of_next (exec_decode_dispatchHalt (s := s.during .decode) rfl hE) rfl⟩))
      · exact .inr (.inr (.inr ⟨i, hi, rfl, hE, hc,
          runStage_of_next (exec_decode_dispatch hi (s := s.during .decode) rfl hE hc) rfl⟩))

/-- The phase does not matter to Fetch's hand-on. -/
theorem State.pushFetch_during (s : State) (st st' : Stage) :
    (s.during st).pushFetch.during st' = s.pushFetch.during st' := by
  unfold State.pushFetch
  cases hs : s.lD.stalled <;> simp [hs] <;> rfl

/-- What Fetch can do. -/
theorem fetchStage_cases (s : State) :
    (s.lF.interrupted = true ∧ fetchStage s = .next s) ∨
    (s.lF.interrupted = false ∧ s.fSkip = true ∧ fetchStage s = .next { s with fSkip := false }) ∨
    (s.lF.interrupted = false ∧ s.fSkip = false ∧ s.lF.empty = true ∧ s.iFetch = none ∧ fetchStage s = .next s) ∨
    (∃ r, s.lF.interrupted = false ∧ s.fSkip = false ∧ s.lF.empty = true ∧ s.iFetch = some r ∧
      fetchStage s = .next ((s.fillFetch r).pushFetch.during .fetch)) ∨
    (s.lF.interrupted = false ∧ s.fSkip = false ∧ s.lF.empty = false ∧
      fetchStage s = .next (s.pushFetch.during .fetch)) := by
  unfold fetchStage
  cases hint : s.lF.interrupted
  case true => exact .inl ⟨rfl, rfl⟩
  cases hskip : s.fSkip
  case true => exact .inr (.inl ⟨rfl, rfl, rfl⟩)
  cases he : s.lF.empty
  case false =>
    have hexec : exec s.lF.instr (s.during .fetch) = .next (s.during .fetch).pushFetch := by
      rw [exec_fetch _ rfl, fetchAction, State.during_lF, he]
      rfl
    refine .inr (.inr (.inr (.inr ⟨rfl, rfl, rfl, ?_⟩)))
    simp only [State.fetchTarget, he, Bool.false_eq_true, if_false]
    exact runStage_of_next hexec (State.pushFetch_during s .fetch .fetch)
  cases hr : s.iFetch with
  | none =>
    refine .inr (.inr (.inl ⟨rfl, rfl, rfl, rfl, ?_⟩))
    simp [State.fetchTarget, he, hr]
  | some r =>
    have hr' : (s.during .fetch).iFetch = some r := hr
    have hexec : exec r.toInstr (s.during .fetch) = .next ((s.during .fetch).fillFetch r).pushFetch := by
      rw [exec_fetch _ rfl, fetchAction, State.during_lF, he, hr']
      rfl
    refine .inr (.inr (.inr (.inl ⟨r, rfl, rfl, rfl, rfl, ?_⟩)))
    simp only [State.fetchTarget, he, hr, if_true, Option.map_some]
    exact runStage_of_next hexec (State.pushFetch_during (s.fillFetch r) .fetch .fetch)

/-! ### What a stage function leaves alone -/

/-- Writeback writes registers, the tracker, `ICOUNT`, `L_W` and, on HALT, `RUN_STATE`. -/
theorem writebackStage_frame {s t : State} (h : writebackStage s = .next t) :
    t = { s with
      x := t.x, ready := t.ready, flagsValid := t.flagsValid, icount := t.icount, lW := t.lW, runState := t.runState
      phase := t.phase } := by
  obtain ⟨-, hs⟩ | ⟨-, hs⟩ | ⟨i, -, -, hs⟩ := writebackStage_cases s <;>
    rw [hs, Host.Outcome.next.injEq] at h <;> subst h <;> rfl

/-- Memory writes data memory and the latches `L_M`, `L_W`. -/
theorem memoryStage_frame {s t : State} (h : memoryStage s = .next t) :
    t = { s with dmem := t.dmem, lM := t.lM, lW := t.lW, phase := t.phase } := by
  obtain ⟨-, hs⟩ | ⟨-, hs⟩ | ⟨i, -, -, -, hs⟩ | ⟨i, -, -, hs⟩ := memoryStage_cases s <;> rw [hs] at h
  case inr.inr.inr => cases h
  all_goals
    rw [Host.Outcome.next.injEq] at h
    subst h
    rfl

/-- Execute writes `PC`, the condition codes, `flags_valid`, the hold of Fetch and the latches but `L_W`. -/
theorem executeStage_frame {s t : State} (h : executeStage s = .next t) :
    t = { s with
      pc := t.pc, z := t.z, n := t.n, p := t.p, flagsValid := t.flagsValid, fSkip := t.fSkip
      lF := t.lF, lD := t.lD, lE := t.lE, lM := t.lM, phase := t.phase } := by
  obtain ⟨-, hs⟩ | ⟨-, hs⟩ | ⟨i, -, -, -, hs⟩ | ⟨i, -, -, hs⟩ := executeStage_cases s <;> rw [hs] at h
  case inr.inr.inr => cases h
  all_goals
    rw [Host.Outcome.next.injEq] at h
    subst h
    rfl

/-- Decode writes the tracker and the latches `L_F`, `L_D`, `L_E`. -/
theorem decodeStage_frame {s t : State} (h : decodeStage s = .next t) :
    t = { s with ready := t.ready, lF := t.lF, lD := t.lD, lE := t.lE, phase := t.phase } := by
  obtain ⟨-, hs⟩ | ⟨i, -, -, hs⟩ | ⟨-, -, hs⟩ | ⟨i, -, -, -, -, hs⟩ := decodeStage_cases s <;>
    rw [hs, Host.Outcome.next.injEq] at h <;> subst h <;> rfl

/-- Fetch's hand-on writes the latches `L_F`, `L_D`. -/
theorem State.pushFetch_frame (s : State) : s.pushFetch = { s with lF := s.pushFetch.lF, lD := s.pushFetch.lD } := by
  unfold State.pushFetch
  cases s.lD.stalled <;> rfl

/-- Fetch writes `PC`, its hold and the latches `L_F`, `L_D`. -/
theorem fetchStage_frame {s t : State} (h : fetchStage s = .next t) :
    t = { s with pc := t.pc, fSkip := t.fSkip, lF := t.lF, lD := t.lD, phase := t.phase } := by
  obtain ⟨-, hs⟩ | ⟨-, -, hs⟩ | ⟨-, -, -, -, hs⟩ | ⟨r, -, -, -, -, hs⟩ | ⟨-, -, -, hs⟩ := fetchStage_cases s <;>
    rw [hs, Host.Outcome.next.injEq] at h <;> subst h
  case inr.inr.inr.inl => rw [State.pushFetch_frame]; rfl
  case inr.inr.inr.inr => rw [State.pushFetch_frame]; rfl
  all_goals rfl

/-! ### A pass and a step -/

/-- A step that passes both boundary tests evaluates a pass (`40_pipeline_stages.md` R72). -/
theorem step_of_willPass {s : State} (h : s.WillPass) : step s = catchFault s (pass s) := by
  have hbudget : ¬ s.inputs.cycleLimit < s.clk := Nat.not_lt.2 h.inBudget
  simp only [step, cycle, h.running, hbudget, h.inRetireLimit, ne_eq, not_true_eq_false, if_false, Bool.false_eq_true]

/-- The five stage functions of a completed pass, each answering a next state. -/
structure Passes (s s1 s2 s3 s4 s5 : State) : Prop where
  writeback : writebackStage s = .next s1
  memory : memoryStage s1 = .next s2
  execute : executeStage s2 = .next s3
  decode : decodeStage s3 = .next s4
  fetch : fetchStage s4 = .next s5

/-- The ways a step can go, with why (`40_pipeline_stages.md` R72, `60_exceptions.md` R137, R140). -/
inductive StepOutcome (s : State) : State → Prop
  | terminal (h : s.runState ≠ .running) : StepOutcome s s
  | budget (hr : s.runState = .running) (h : s.inputs.cycleLimit < s.clk) :
    StepOutcome s { s with runState := .budgetExhausted }
  | retireLimit (hr : s.runState = .running) (h : s.retireLimitReached = true) :
    StepOutcome s { s with runState := .retireLimit }
  | halted (hw : s.WillPass) (h : s.lW.active = some .halt) : StepOutcome s s.haltCommitted
  | badAddress (hw : s.WillPass) (hh : s.haltCommits = false) (h : s.badAddress = true) :
    StepOutcome s (takeFault .dataAddressOutOfRange s)
  | zeroDivisor (hw : s.WillPass) (hh : s.haltCommits = false) (ha : s.badAddress = false)
    (h : s.zeroDivisor = true) : StepOutcome s (takeFault .divideByZero s)
  | completed {s1 s2 s3 s4 s5 : State} (hw : s.WillPass) (hh : s.haltCommits = false) (ha : s.badAddress = false)
    (hz : s.zeroDivisor = false) (h : Passes s s1 s2 s3 s4 s5) : StepOutcome s s5.tick

theorem haltCommits_iff {s : State} : s.haltCommits = true ↔ s.lW.active = some .halt := by
  simp [State.haltCommits]

theorem badAddress_of_active {s : State} {i : Instr} (h : s.lM.active = some i) : s.badAddress = s.misses i := by
  rw [State.badAddress, h]
  rfl

/-- Memory faults exactly when its occupant misses data memory. -/
theorem memoryStage_total (s : State) :
    (s.badAddress = true ∧ memoryStage s = .fault .dataAddressOutOfRange) ∨
    (s.badAddress = false ∧ ∃ t, memoryStage s = .next t) := by
  obtain ⟨hact, hs⟩ | ⟨hact, hs⟩ | ⟨i, -, hact, hmiss, hs⟩ | ⟨i, hact, hmiss, hs⟩ := memoryStage_cases s
  · exact .inr ⟨by simp [State.badAddress, hact], _, hs⟩
  · exact .inr ⟨by simp [State.badAddress, hact, isMemoryOp], _, hs⟩
  · exact .inr ⟨(badAddress_of_active hact).trans hmiss, _, hs⟩
  · exact .inl ⟨(badAddress_of_active hact).trans hmiss, hs⟩

theorem zeroDivisor_of_executing {s : State} {i : Instr} (h : s.executing = some i) :
    s.zeroDivisor = dividesByZero i s.lE := by
  unfold State.zeroDivisor
  rw [h]
  cases i <;> rfl

/-- Execute faults exactly when its occupant divides by zero. -/
theorem executeStage_total (s : State) :
    (s.zeroDivisor = true ∧ executeStage s = .fault .divideByZero) ∨
    (s.zeroDivisor = false ∧ ∃ t, executeStage s = .next t) := by
  obtain ⟨hact, hs⟩ | ⟨hact, hs⟩ | ⟨i, -, hact, hdiv, hs⟩ | ⟨i, hact, hdiv, hs⟩ := executeStage_cases s
  · exact .inr ⟨by simp [State.zeroDivisor, hact], _, hs⟩
  · exact .inr ⟨zeroDivisor_of_executing hact, _, hs⟩
  · exact .inr ⟨(zeroDivisor_of_executing hact).trans hdiv, _, hs⟩
  · exact .inl ⟨(zeroDivisor_of_executing hact).trans hdiv, hs⟩

theorem decodeStage_total (s : State) : ∃ t, decodeStage s = .next t := by
  obtain ⟨-, hs⟩ | ⟨i, -, -, hs⟩ | ⟨-, -, hs⟩ | ⟨i, -, -, -, -, hs⟩ := decodeStage_cases s <;> exact ⟨_, hs⟩

theorem fetchStage_total (s : State) : ∃ t, fetchStage s = .next t := by
  obtain ⟨-, hs⟩ | ⟨-, -, hs⟩ | ⟨-, -, -, -, hs⟩ | ⟨r, -, -, -, -, hs⟩ | ⟨-, -, -, hs⟩ := fetchStage_cases s <;>
    exact ⟨_, hs⟩

/-- Without a HALT to commit, Writeback answers and keeps `RUN_STATE`. -/
theorem writebackStage_of_not_halt {s : State} (h : s.haltCommits = false) :
    ∃ t, writebackStage s = .next t ∧ t.runState = s.runState := by
  obtain ⟨-, hs⟩ | ⟨hact, -⟩ | ⟨i, -, -, hs⟩ := writebackStage_cases s
  · exact ⟨s, hs, rfl⟩
  · rw [← Bool.not_eq_true, haltCommits_iff] at h
    exact absurd hact h
  · exact ⟨_, hs, rfl⟩

/-- What becomes of a pass that begins in a running state (`60_exceptions.md` R138, R140). -/
theorem stepOutcome_of_willPass {s : State} (hw : s.WillPass) : ∃ t, step s = .next t ∧ StepOutcome s t := by
  rw [step_of_willPass hw, pass]
  cases hh : s.haltCommits
  case true =>
    have hact := haltCommits_iff.1 hh
    have hs : writebackStage s = .next s.haltCommitted := by
      simpa [hact] using writebackStage_cases s
    exact ⟨s.haltCommitted, by rw [hs]; rfl, .halted hw hact⟩
  obtain ⟨s1, h1, hr1⟩ := writebackStage_of_not_halt hh
  have hnot : s1.runState ≠ .halted := by simp [hr1, hw.running]
  have hframe := writebackStage_frame h1
  have hbad : s1.badAddress = s.badAddress := by rw [hframe]; rfl
  simp only [h1, andThen_next, hnot, if_false, restOfPass]
  obtain ⟨ha, h2⟩ | ⟨ha, s2, h2⟩ := memoryStage_total s1
  · exact ⟨takeFault .dataAddressOutOfRange s, by rw [h2]; rfl, .badAddress hw hh (hbad ▸ ha)⟩
  have hdiv : s2.zeroDivisor = s.zeroDivisor := by rw [memoryStage_frame h2, hframe]; rfl
  simp only [h2, andThen_next]
  obtain ⟨hz, h3⟩ | ⟨hz, s3, h3⟩ := executeStage_total s2
  · exact ⟨takeFault .divideByZero s, by rw [h3]; rfl, .zeroDivisor hw hh (hbad ▸ ha) (hdiv ▸ hz)⟩
  obtain ⟨s4, h4⟩ := decodeStage_total s3
  obtain ⟨s5, h5⟩ := fetchStage_total s4
  exact ⟨s5.tick, by simp only [h3, h4, h5, andThen_next, catchFault_next],
    .completed hw hh (hbad ▸ ha) (hdiv ▸ hz) ⟨h1, h2, h3, h4, h5⟩⟩

/-- From every state there is a next state, and it is one of the outcomes. -/
theorem stepOutcome_total (s : State) : ∃ t, step s = .next t ∧ StepOutcome s t := by
  by_cases hr : s.runState = .running
  case neg => exact ⟨s, step_of_terminal hr, .terminal hr⟩
  by_cases hc : s.inputs.cycleLimit < s.clk
  case pos => exact ⟨_, by simp only [step, cycle, hr, hc, ne_eq, not_true_eq_false, if_false, if_true], .budget hr hc⟩
  cases hl : s.retireLimitReached
  case true =>
    exact ⟨_, by simp only [step, cycle, hr, hc, hl, ne_eq, not_true_eq_false, if_false, if_true], .retireLimit hr hl⟩
  exact stepOutcome_of_willPass ⟨hr, Nat.not_lt.1 hc, hl⟩

/-- What a step can do: the one case split every statement about a step begins with. -/
theorem stepOutcome {s t : State} (h : step s = .next t) : StepOutcome s t := by
  obtain ⟨t', ht', hout⟩ := stepOutcome_total s
  rw [h, Host.Outcome.next.injEq] at ht'
  exact ht' ▸ hout

/-- A step that leaves the machine running has completed a pass. -/
theorem completed_of_running {s t : State} (hstep : step s = .next t) (hr : t.runState = .running) :
    s.WillPass ∧ s.haltCommits = false ∧ ∃ s1 s2 s3 s4 s5, Passes s s1 s2 s3 s4 s5 ∧ t = s5.tick := by
  cases stepOutcome hstep with
  | terminal h => exact absurd hr h
  | completed hw hh _ _ h => exact ⟨hw, hh, _, _, _, _, _, h, rfl⟩
  | _ => cases hr

/-- A step out of a running state that halts the machine has committed a HALT. -/
theorem haltCommitted_of_halted {s t : State} (hs : s.runState = .running) (hstep : step s = .next t)
    (ht : t.runState = .halted) : s.WillPass ∧ s.lW.active = some .halt ∧ t = s.haltCommitted := by
  cases stepOutcome hstep with
  | terminal h => exact absurd hs h
  | halted hw hact => exact ⟨hw, hact, rfl⟩
  | completed hw hh _ _ h =>
    obtain ⟨s1', h1, hr1⟩ := writebackStage_of_not_halt hh
    obtain rfl := Host.Outcome.next.inj (h.writeback.symm.trans h1)
    rw [State.tick_runState, fetchStage_frame h.fetch, decodeStage_frame h.decode, executeStage_frame h.execute,
      memoryStage_frame h.memory] at ht
    cases (hr1.trans hs).symm.trans ht
  | _ => cases ht

end Sys2Proof.Machine

/-! PROOFS. What a step can and cannot do, whatever the state. -/

namespace Sys2Proof.Machine

/-! ### The order of a pass, and that there always is a next state -/

theorem writebackStage_of_active {s : State} {i : Instr} (h : s.lW.active = some i) :
    writebackStage s = andThen (exec i (s.during .writeback)) fun t => .next (t.during .fetch) := by
  rw [writebackStage, h]
  rfl

theorem memoryStage_of_active {s : State} {i : Instr} (h : s.lM.active = some i) :
    memoryStage s = andThen (exec i (s.during .memory)) fun t => .next (t.during .fetch) := by
  rw [memoryStage, h]
  rfl

theorem executing_eq_some {s : State} {i : Instr} :
    s.executing = some i ↔ s.lE.stalled = false ∧ s.lE.active = some i := by
  cases hs : s.lE.stalled <;> simp [State.executing, hs]

theorem executing_of_active_none {s : State} (h : s.lE.active = none) : s.executing = none := by
  simp [State.executing, h]

theorem executeStage_of_executing {s : State} {i : Instr} (h : s.executing = some i) :
    executeStage s = andThen (exec i (s.during .execute)) fun t => .next (t.during .fetch) := by
  rw [executeStage, ← State.executing, h]
  rfl

theorem executeStage_of_idle {s : State} (h : s.executing = none) : executeStage s = .next s := by
  rw [executeStage, ← State.executing, h]
  rfl

theorem decodeStage_of_active {s : State} {i : Instr} (h : s.lD.active = some i) :
    decodeStage s = andThen (exec i (s.during .decode)) fun t => .next (t.during .fetch) := by
  rw [decodeStage, h]
  rfl

theorem writebackStage_of_inactive {s : State} (h : s.lW.active = none) : writebackStage s = .next s := by
  rw [writebackStage, h]
  rfl

theorem memoryStage_of_inactive {s : State} (h : s.lM.active = none) : memoryStage s = .next s := by
  rw [memoryStage, h]
  rfl

theorem decodeStage_of_inactive {s : State} (h : s.lD.active = none) : decodeStage s = .next s := by
  rw [decodeStage, h]
  rfl

theorem fetchStage_of_working {s : State} (hint : s.lF.interrupted = false) (hskip : s.fSkip = false) :
    fetchStage s = runStage .fetch s.fetchTarget s := by
  simp [fetchStage, hint, hskip]

theorem fetchStage_of_shut {s : State} (h : s.lF.interrupted = true) : fetchStage s = .next s := if_pos h

theorem fetchStage_of_held {s : State} (hint : s.lF.interrupted = false) (hskip : s.fSkip = true) :
    fetchStage s = .next { s with fSkip := false } := by
  simp [fetchStage, hint, hskip]

/-- Settles O9: a pass is its definition, and each stage function its guard and its occupant's meaning. -/
theorem stepRunsTheOccupantsInReverseOrder : Obligations.StepRunsTheOccupantsInReverseOrder := by
  refine ⟨fun s hw => step_of_willPass hw, fun s i h => writebackStage_of_active h,
    fun s i h => memoryStage_of_active h, fun s i h hs => executeStage_of_executing (executing_eq_some.2 ⟨hs, h⟩),
    fun s i h => decodeStage_of_active h, fun s i hint hskip ht => ?_, fun s => ⟨writebackStage_of_inactive,
      memoryStage_of_inactive, fun h => executeStage_of_idle (executing_of_active_none h), decodeStage_of_inactive,
      fetchStage_of_shut, fetchStage_of_held, fun hint hskip ht => ?_⟩⟩
  · rw [fetchStage_of_working hint hskip, ht]
    rfl
  · rw [fetchStage_of_working hint hskip, ht]
    rfl

/-- Decode's and Fetch's actions refuse nothing, and the other stages' equations show a next state or a fault. -/
theorem exec_ne_refused (i : Instr) (s : State) (r : Refusal) : exec i s ≠ .refused r := by
  intro h
  by_cases hi : i = .halt
  · subst hi
    cases hp : s.phase
    case writeback => rw [exec_writeback_halt hp] at h; cases h
    case memory => rw [exec_memory_halt hp] at h; cases h
    case execute => rw [exec_execute_halt hp] at h; cases h
    case decode =>
      obtain ⟨-, -, hd⟩ | ⟨-, hd⟩ := dispatchHalt_cases .halt s <;> rw [exec_decode_halt hp, hd] at h <;> cases h
    case fetch =>
      obtain ⟨_, -, -, hf⟩ | ⟨-, -, hf⟩ | ⟨-, hf⟩ := fetchAction_cases s <;> rw [exec_fetch _ hp, hf] at h <;> cases h
  · cases hp : s.phase
    case writeback => rw [exec_writeback_eq hi hp] at h; cases h
    case memory => rw [exec_memory_eq hi hp] at h; split at h <;> cases h
    case execute => rw [exec_execute_eq hi hp] at h; split at h <;> cases h
    case decode =>
      obtain ⟨-, -, hd⟩ | ⟨-, hd⟩ := dispatch_cases i s <;> rw [exec_decode hi hp, hd] at h <;> cases h
    case fetch =>
      obtain ⟨_, -, -, hf⟩ | ⟨-, -, hf⟩ | ⟨-, hf⟩ := fetchAction_cases s <;> rw [exec_fetch _ hp, hf] at h <;> cases h

/-- Settles O10: no equation of a stage is a refusal, and a step always has an outcome. -/
theorem everyStateHasANextState : Obligations.EveryStateHasANextState :=
  ⟨exec_ne_refused, fun s => (stepOutcome_total s).imp fun _ ht => ht.1⟩

/-- Settles O12: the two tests at the boundary, in their order. -/
theorem boundaryStopTests : Obligations.BoundaryStopTests := by
  refine fun s hr => ⟨fun hc => ?_, fun k hc hlimit hk => ?_⟩
  · simp only [step, cycle, hr, hc, ne_eq, not_true_eq_false, if_false, if_true]
  · have hl : s.retireLimitReached = true := by simp [State.retireLimitReached, hlimit, hk]
    simp only [step, cycle, hr, Nat.not_lt.2 hc, hl, ne_eq, not_true_eq_false, if_false, if_true]

/-- Settles O8: with every latch empty the first four stages do nothing, and Fetch reads the record into `L_D`. -/
theorem stepFetchesAndRunsTheDecodedInstruction : Obligations.StepFetchesAndRunsTheDecodedInstruction := by
  intro s w r i hw hd hrec hdec hfetch
  obtain ⟨r', hr', hi⟩ := decode_eq_ok.1 hdec
  obtain rfl : r = r' := Except.ok.inj (hrec.symm.trans hr')
  have hexec : exec i (s.during .fetch) = .next { s.during .fetch with
      pc := wrap32 (s.pc.toInt + 4), lF := Latch.bubble, lD := Latch.fetched r s.pc } :=
    (fetchActionOfEveryInstruction i (s.during .fetch) rfl).1 r (by simp [hd.fetchEmpty]) hfetch
      (by simp [hd.decodeEmpty])
  have hfetchStage : fetchStage s = .next (State.during { s.during .fetch with
      pc := wrap32 (s.pc.toInt + 4), lF := Latch.bubble, lD := Latch.fetched r s.pc } .fetch) := by
    have htarget : s.fetchTarget = some i := by simp [State.fetchTarget, hd.fetchEmpty, hfetch, hi]
    rw [fetchStage_of_working (by simp [hd.fetchEmpty]) hd.noSkip, htarget]
    exact runStage_of_next hexec rfl
  refine ⟨_, hexec, ?_, ?_, hi⟩
  · rw [step_of_willPass hw, pass, writebackStage_of_inactive (by simp [hd.writebackEmpty]), andThen_next,
      if_neg (by simp [hw.running]), restOfPass, memoryStage_of_inactive (by simp [hd.memoryEmpty]), andThen_next,
      executeStage_of_idle (executing_of_active_none (by simp [hd.executeEmpty])), andThen_next,
      decodeStage_of_inactive (by simp [hd.decodeEmpty]), andThen_next, hfetchStage]
    rfl
  · rw [← hd.fetchEmpty]
    rfl

/-! ### Run state and counters -/

/-- Memory, Execute, Decode and Fetch keep `RUN_STATE`, `CLK`, `ICOUNT` and the inputs (`40_pipeline_stages.md` R72). -/
theorem Passes.kept {s s1 s2 s3 s4 s5 : State} (h : Passes s s1 s2 s3 s4 s5) :
    s5.runState = s1.runState ∧ s5.clk = s1.clk ∧ s5.icount = s1.icount ∧ s5.inputs = s1.inputs ∧ s5.x = s1.x := by
  rw [fetchStage_frame h.fetch, decodeStage_frame h.decode, executeStage_frame h.execute, memoryStage_frame h.memory]
  exact ⟨rfl, rfl, rfl, rfl, rfl⟩

/-- What Writeback does in a pass that commits no HALT: nothing, or one commit. -/
theorem writebackStage_completed {s s1 : State} (hh : s.haltCommits = false) (h : writebackStage s = .next s1) :
    (s.lW.active = none ∧ s1 = s) ∨
    (∃ i, i ≠ .halt ∧ s.lW.active = some i ∧ s1 = (s.committed i).during .fetch) := by
  obtain ⟨hact, hs⟩ | ⟨hact, -⟩ | ⟨i, hi, hact, hs⟩ := writebackStage_cases s
  · rw [hs, Host.Outcome.next.injEq] at h
    exact .inl ⟨hact, h.symm⟩
  · rw [haltCommits_iff.2 hact] at hh
    cases hh
  · rw [hs, Host.Outcome.next.injEq] at h
    exact .inr ⟨i, hi, hact, h.symm⟩

/-- In a completed pass the machine stays running and one commit is counted exactly when `L_W` had an occupant. -/
theorem Passes.counters {s s1 s2 s3 s4 s5 : State} (hh : s.haltCommits = false) (h : Passes s s1 s2 s3 s4 s5) :
    s5.runState = s.runState ∧ s5.clk = s.clk ∧
      s5.icount = s.icount + (if s.lW.active.isSome then 1 else 0) := by
  obtain ⟨hr, hc, hn, -, -⟩ := h.kept
  rw [hr, hc, hn]
  obtain ⟨hact, rfl⟩ | ⟨i, -, hact, rfl⟩ := writebackStage_completed hh h.writeback
  · simp [hact]
  · rw [hact]
    exact ⟨rfl, rfl, rfl⟩

/-- Settles O13: each outcome of a step has its own run state, and its guards say when it is taken. -/
theorem faultsExactlyWhen : Obligations.FaultsExactlyWhen := by
  intro s t hw hstep
  cases stepOutcome hstep with
  | terminal h => exact absurd hw.running h
  | budget _ h => exact absurd h (Nat.not_lt.2 hw.inBudget)
  | retireLimit _ h => rw [hw.inRetireLimit] at h; cases h
  | halted _ h => simp [State.haltCommitted, haltCommits_iff.2 h]
  | badAddress _ hh h => simp [takeFault, hh, h]
  | zeroDivisor _ hh ha h => simp [takeFault, hh, ha, h]
  | completed _ hh ha hz h => simp [h.counters hh, hw.running, hh, ha, hz]

/-- Settles O14: the counters of each outcome of a step. -/
theorem countersCountPassesAndCommits : Obligations.CountersCountPassesAndCommits := by
  intro s t hr hstep
  cases stepOutcome hstep with
  | terminal h => exact absurd hr h
  | budget => simp
  | retireLimit => simp
  | halted _ h => simp [State.haltCommitted]
  | badAddress => simp [takeFault]
  | zeroDivisor => simp [takeFault]
  | completed _ hh _ _ h => simp [h.counters hh, hr]

/-! ### Inputs, registers, memory -/

theorem exec_decode_inputs {i : Instr} {s t : State} (hp : s.phase = .decode) (h : exec i s = .next t) :
    t.inputs = s.inputs := by
  by_cases hstall : s.executeHolds = true ∨ s.canDispatch i = false
  · rw [exec_decode_stall hp hstall] at h
    cases h
    rfl
  · simp only [not_or, Bool.not_eq_true, Bool.not_eq_false] at hstall
    obtain ⟨hE, hc⟩ := hstall
    by_cases hi : i = .halt
    · subst hi
      rw [exec_decode_dispatchHalt hp hE] at h
      cases h
      rfl
    · rw [exec_decode_dispatch hi hp hE hc] at h
      cases h
      rfl

theorem exec_fetch_inputs {i : Instr} {s t : State} (hp : s.phase = .fetch) (h : exec i s = .next t) :
    t.inputs = s.inputs := by
  rw [exec_fetch i hp] at h
  obtain ⟨r, -, -, hf⟩ | ⟨-, -, hf⟩ | ⟨-, hf⟩ := fetchAction_cases s <;> rw [hf] at h <;> cases h <;> simp

/-- No meaning writes an input (`10_state.md` R15). -/
theorem exec_inputs {i : Instr} {s t : State} (h : exec i s = .next t) : t.inputs = s.inputs := by
  by_cases hi : i = .halt
  · subst hi
    cases hp : s.phase
    case writeback => rw [exec_writeback_halt_eq hp] at h; cases h; rfl
    case memory => rw [exec_memory_halt hp] at h; cases h; rfl
    case execute => rw [exec_execute_halt hp] at h; cases h; rfl
    case decode => exact exec_decode_inputs hp h
    case fetch => exact exec_fetch_inputs hp h
  · cases hp : s.phase
    case writeback => rw [exec_writeback_eq hi hp] at h; cases h; rfl
    case memory => rw [exec_memory_eq hi hp] at h; split at h <;> cases h; rfl
    case execute => rw [exec_execute_eq hi hp] at h; split at h <;> cases h; rfl
    case decode => exact exec_decode_inputs hp h
    case fetch => exact exec_fetch_inputs hp h

/-- Settles O44: no outcome of a step and no meaning writes an input. -/
theorem inputsAreNeverWritten : Obligations.InputsAreNeverWritten := by
  refine ⟨fun s t hstep => ?_, fun i s t h => exec_inputs h⟩
  cases stepOutcome hstep with
  | completed _ _ _ _ h =>
    obtain ⟨-, -, -, hin, -⟩ := h.kept
    rw [State.tick_inputs, hin, writebackStage_frame h.writeback]
  | _ => rfl

/-- Settles O42: only Writeback's commit writes the register file, and only its destinations. -/
theorem registersChangeOnlyAtCommit : Obligations.RegistersChangeOnlyAtCommit := by
  intro s t r hstep hne
  cases stepOutcome hstep with
  | @completed s1 _ _ _ _ _ hh _ _ h =>
    obtain ⟨-, -, -, -, hx⟩ := h.kept
    obtain ⟨-, rfl⟩ | ⟨i, -, hact, rfl⟩ := writebackStage_completed hh h.writeback
    · exact absurd (State.readReg_congr hx r) hne
    · refine ⟨i, hact, ?_⟩
      by_contra hr
      exact hne ((State.readReg_congr hx r).trans (commitRegs_of_not_mem hr s.lW s.x))
  | _ => exact absurd rfl hne

/-- A completed pass leaves data memory as Memory left it. -/
theorem Passes.dmem_eq {s s1 s2 s3 s4 s5 : State} (h : Passes s s1 s2 s3 s4 s5) : s5.dmem = s2.dmem := by
  rw [fetchStage_frame h.fetch, decodeStage_frame h.decode, executeStage_frame h.execute]

/-- Only a store in Memory writes data memory, at the latch's address, and then the value of its `rs1`
(`40_pipeline_stages.md` R92). -/
theorem memoryStage_dmem {s t : State} {a : Nat} (hwf : Memory.wf s.dmem = true) (h : memoryStage s = .next t)
    (hne : Memory.read t.dmem a ≠ Memory.read s.dmem a) :
    ∃ i, s.lM.active = some i ∧ isStore i = true ∧ s.lM.memoryAddress.toInt = (a : Int) ∧
      (a : Int) < (s.inputs.dmemWords : Int) ∧ Memory.read t.dmem a = s.lM.rs1Value := by
  obtain ⟨-, h2⟩ | ⟨-, h2⟩ | ⟨i, -, hact, hmiss, h2⟩ | ⟨i, -, -, h2⟩ := memoryStage_cases s <;>
    rw [h2] at h <;> cases h
  · exact absurd rfl hne
  · exact absurd rfl hne
  · cases hst : isStore i
    · simp [State.accessed, hst] at hne
    · have hok : s.dataAddressOk s.lM.memoryAddress = true := by
        simpa [State.misses, isMemoryOp_of_isStore hst] using hmiss
      rw [s.dataAddressOk_iff] at hok
      simp only [State.during_dmem, State.accessed, hst, if_true] at hne ⊢
      have ha : a = s.lM.memoryAddress.toInt.toNat := by
        by_contra ha
        exact hne (Memory.read_write_of_ne _ _ ha)
      subst ha
      exact ⟨i, hact, hst, by omega, by omega, Memory.read_write_self hwf _ _⟩

/-- Settles O43: a completed pass leaves data memory as Memory does, and Memory works on the latch and the memory of
the state the pass began in. -/
theorem memoryChangesOnlyByStores : Obligations.MemoryChangesOnlyByStores := by
  intro s t a hwf hstep hne
  cases stepOutcome hstep with
  | @completed s1 s2 _ _ _ _ _ _ _ h =>
    have hdmem : s1.dmem = s.dmem := by rw [writebackStage_frame h.writeback]
    have hlM : s1.lM = s.lM := by rw [writebackStage_frame h.writeback]
    have hin : s1.inputs = s.inputs := by rw [writebackStage_frame h.writeback]
    rw [State.tick_dmem, h.dmem_eq] at hne ⊢
    rw [← hdmem] at hwf hne
    simpa only [hlM, hin] using memoryStage_dmem hwf h.memory hne
  | _ => exact absurd rfl hne

/-! ### Condition codes, `PC` and the squash -/

/-- What Execute leaves in a completed pass: the occupant of `L_E` is the one the pass began with, and so are its
latch and the condition codes it reads. -/
theorem Passes.execute_reads {s s1 s2 s3 s4 s5 : State} (h : Passes s s1 s2 s3 s4 s5) :
    s2.executing = s.executing ∧ s2.lE = s.lE ∧ s2.z = s.z ∧ s2.n = s.n ∧ s2.p = s.p ∧ s2.pc = s.pc := by
  rw [memoryStage_frame h.memory, writebackStage_frame h.writeback]
  exact ⟨rfl, rfl, rfl, rfl, rfl, rfl⟩

/-- Decode and Fetch keep the condition codes and `L_M`. -/
theorem Passes.after_execute {s s1 s2 s3 s4 s5 : State} (h : Passes s s1 s2 s3 s4 s5) :
    s5.z = s3.z ∧ s5.n = s3.n ∧ s5.p = s3.p ∧ s5.lM = s3.lM ∧ s5.lE = s4.lE := by
  rw [fetchStage_frame h.fetch, decodeStage_frame h.decode]
  exact ⟨rfl, rfl, rfl, rfl, rfl⟩

/-- What Execute does in a pass without a fault. -/
theorem executeStage_next {s t : State} (h : executeStage s = .next t) :
    (s.executing = none ∧ t = s) ∨ (s.executing = some .halt ∧ t = s.haltExecuted) ∨
    (∃ i, i ≠ .halt ∧ s.executing = some i ∧ dividesByZero i s.lE = false ∧ t = (s.executed i).during .fetch) := by
  obtain ⟨hact, hs⟩ | ⟨hact, hs⟩ | ⟨i, hi, hact, hdiv, hs⟩ | ⟨i, -, -, hs⟩ := executeStage_cases s <;>
    rw [hs] at h <;> cases h
  · exact .inl ⟨hact, rfl⟩
  · exact .inr (.inl ⟨hact, rfl⟩)
  · exact .inr (.inr ⟨i, hi, hact, hdiv, rfl⟩)

/-- Execute keeps the condition codes, or a flag writer sets them from the result it hands on
(`40_pipeline_stages.md` R87). -/
theorem executeStage_codes {s t : State} (h : executeStage s = .next t) :
    (t.z = s.z ∧ t.n = s.n ∧ t.p = s.p) ∨
    ∃ i, s.executing = some i ∧ isFlagWriter i = true ∧ t.lM.instr = i ∧ t.lM.empty = false ∧
      t.z = zeroFlag t.lM.result ∧ t.n = negativeFlag t.lM.result ∧ t.p = positiveFlag t.lM.result := by
  obtain ⟨-, rfl⟩ | ⟨-, rfl⟩ | ⟨i, hi, hact, -, rfl⟩ := executeStage_next h
  · exact .inl ⟨rfl, rfl, rfl⟩
  · exact .inl ⟨rfl, rfl, rfl⟩
  · cases hr : aluResult i s.lE with
    | none => exact .inl (by simp [State.executed, hr])
    | some r =>
      have hinstr : s.lE.instr = i := (active_eq_some.1 (executing_eq_some.1 hact).2).2.2
      refine .inr ⟨i, hact, by rw [← aluResult_isSome i s.lE, hr]; rfl, ?_⟩
      rw [State.executed_of_aluResult hr]
      exact ⟨hinstr, rfl, rfl, rfl, rfl⟩

/-- Settles O41: Execute alone writes the condition codes, and exactly one test of a value holds. -/
theorem onlyFlagWritersInExecuteChangeTheCodes : Obligations.OnlyFlagWritersInExecuteChangeTheCodes := by
  intro s t hstep
  cases stepOutcome hstep with
  | @completed s1 s2 s3 s4 s5 _ _ _ _ h =>
    obtain ⟨hact, -, hz, hn, hp, -⟩ := h.execute_reads
    obtain ⟨hz', hn', hp', hlM, -⟩ := h.after_execute
    simp only [CodesKept, CodesOf, State.tick_z, State.tick_n, State.tick_p, State.tick_lM, hz', hn', hp', hlM, ← hz,
      ← hn, ← hp, ← hact]
    refine (executeStage_codes h.execute).imp_right ?_
    rintro ⟨i, hi, hw, hinstr, he, hcz, hcn, hcp⟩
    rw [hcz, hcn, hcp]
    refine ⟨i, hi, hw, ⟨decide_eq_true_iff, decide_eq_true_iff, decide_eq_true_iff⟩, hinstr, he, ?_⟩
    obtain ⟨hf, hf', hf''⟩ | ⟨hf, hf', hf''⟩ | ⟨hf, hf', hf''⟩ := one_flag_of_value s3.lM.result <;>
      rw [hf, hf', hf''] <;> exact ⟨rfl, rfl⟩
  | _ => exact .inl ⟨rfl, rfl, rfl⟩

/-- The model's reading of a redirect, as a function of the latch and the codes. -/
theorem redirectTarget_eq (s : State) :
    s.redirectTarget = s.executing.bind fun i => redirectOf i s.lE s.z s.n s.p := by
  unfold State.redirectTarget
  cases s.executing with
  | none => rfl
  | some i => cases i <;> rfl

/-- A redirect in Execute: `PC` is the target and what is behind is squashed (`40_pipeline_stages.md` R89). -/
theorem executeStage_redirect {s t : State} {target : Word} (ht : s.redirectTarget = some target)
    (h : executeStage s = .next t) :
    t.pc = target ∧ t.lF = Latch.bubble ∧ t.lD = Latch.bubble ∧ t.lE = Latch.bubble ∧ t.fSkip = true := by
  rw [redirectTarget_eq] at ht
  obtain ⟨hact, -⟩ | ⟨hact, -⟩ | ⟨i, -, hact, -, rfl⟩ := executeStage_next h <;>
    rw [hact, Option.bind] at ht
  · cases ht
  · cases ht
  · rw [State.executed_of_redirect ht]
    exact ⟨rfl, rfl, rfl, rfl, rfl⟩

/-- Without a redirect Execute keeps `PC`, the latches before it and the hold of Fetch. -/
theorem executeStage_no_redirect {s t : State} (ht : s.redirectTarget = none) (h : executeStage s = .next t) :
    t.pc = s.pc ∧ t.lF = s.lF ∧ t.lD = s.lD ∧ t.fSkip = s.fSkip := by
  rw [redirectTarget_eq] at ht
  obtain ⟨-, rfl⟩ | ⟨-, rfl⟩ | ⟨i, -, hact, -, rfl⟩ := executeStage_next h
  · exact ⟨rfl, rfl, rfl, rfl⟩
  · exact ⟨rfl, rfl, rfl, rfl⟩
  · rw [hact, Option.bind] at ht
    simp [State.executed, ht]

/-- Behind a redirect Decode has nothing to do and Fetch only clears its hold (`40_pipeline_stages.md` R73, R89). -/
theorem after_redirect {s3 s4 s5 : State} (hF : s3.lF = Latch.bubble) (hD : s3.lD = Latch.bubble)
    (hskip : s3.fSkip = true) (h4 : decodeStage s3 = .next s4) (h5 : fetchStage s4 = .next s5) :
    s5 = { s3 with fSkip := false } := by
  rw [decodeStage_of_inactive (by simp [hD]), Host.Outcome.next.injEq] at h4
  subst h4
  rw [fetchStage_of_held (by simp [hF]) hskip, Host.Outcome.next.injEq] at h5
  exact h5.symm

/-- Fetch keeps `PC` or advances it (`10_state.md` R19, R20). -/
theorem fetchStage_pc {s t : State} (h : fetchStage s = .next t) : t.pc = s.pc ∨ t.pc = nextPc s.pc := by
  obtain ⟨-, hs⟩ | ⟨-, -, hs⟩ | ⟨-, -, -, -, hs⟩ | ⟨r, -, -, -, -, hs⟩ | ⟨-, -, -, hs⟩ := fetchStage_cases s <;>
    rw [hs] at h <;> cases h <;> simp

/-- The redirect of a pass is decided before Writeback and Memory have run. -/
theorem Passes.redirectTarget_eq {s s1 s2 s3 s4 s5 : State} (h : Passes s s1 s2 s3 s4 s5) :
    s2.redirectTarget = s.redirectTarget := by
  obtain ⟨hact, hlE, hz, hn, hp, -⟩ := h.execute_reads
  rw [Machine.redirectTarget_eq, Machine.redirectTarget_eq, hact, hlE, hz, hn, hp]

/-- Settles O45: Execute writes the target, and otherwise only Fetch may move `PC`. -/
theorem whoWritesPc : Obligations.WhoWritesPc := by
  intro s t hw hstep hr
  obtain ⟨-, -, s1, s2, s3, s4, s5, h, rfl⟩ := completed_of_running hstep hr
  obtain ⟨-, -, -, -, -, hpc⟩ := h.execute_reads
  rw [← h.redirectTarget_eq, State.tick_pc]
  refine ⟨fun target ht => ?_, fun ht => ?_⟩
  · obtain ⟨hpc3, hF, hD, -, hskip⟩ := executeStage_redirect ht h.execute
    rw [after_redirect hF hD hskip h.decode h.fetch]
    exact hpc3
  · obtain ⟨hpc3, -⟩ := executeStage_no_redirect ht h.execute
    have hpc4 : s4.pc = s.pc := by rw [decodeStage_frame h.decode]; exact hpc3.trans hpc
    exact hpc4 ▸ fetchStage_pc h.fetch

/-- Writeback makes no ready register not ready but, at most, a destination of the committing instruction. -/
theorem writebackStage_ready {s t : State} (h : writebackStage s = .next t) (r : Reg) (hr : s.isReady r = true) :
    t.isReady r = true ∨ ∃ i, s.lW.active = some i ∧ r ∈ destsOf i := by
  obtain ⟨-, hs⟩ | ⟨-, hs⟩ | ⟨i, -, hact, hs⟩ := writebackStage_cases s <;> rw [hs] at h <;> cases h
  · exact .inl hr
  · exact .inl hr
  · by_cases hd : r ∈ destsOf i
    · exact .inr ⟨i, hact, hd⟩
    · exact .inl (((State.isReady_retire _ i r).trans (if_neg hd)).trans hr)

/-- Settles O46: Execute empties the three latches, and nothing behind it marks a register. -/
theorem redirectSquashesWhatIsBehind : Obligations.RedirectSquashesWhatIsBehind := by
  intro s t target hw ht hstep hr
  obtain ⟨-, -, s1, s2, s3, s4, s5, h, rfl⟩ := completed_of_running hstep hr
  obtain ⟨-, hF, hD, hE, hskip⟩ := executeStage_redirect (h.redirectTarget_eq.trans ht) h.execute
  have hready : s3.ready = s1.ready := by rw [executeStage_frame h.execute, memoryStage_frame h.memory]
  rw [after_redirect hF hD hskip h.decode h.fetch]
  exact ⟨hF, hD, hE, rfl, fun r hr => (writebackStage_ready h.writeback r hr).imp_left
    (State.isReady_congr hready r).trans⟩

end Sys2Proof.Machine

/-! PROOFS. The invariant of the pipeline, kept by every stage function of a pass: `70_reset_and_hazards.md` R153. -/

namespace Sys2Proof.Machine

/-! ### The states of a latch (`10_state.md` R37) -/

theorem instr_eq_halt {l : Latch} : l.instr = .halt ↔ l.opcode = .HALT := by
  unfold Latch.instr Record.toInstr
  cases l.opcode <;> simp

theorem holdsHalt_iff {l : Latch} : l.HoldsHalt ↔ l.empty = false ∧ l.instr = .halt := by
  rw [Latch.HoldsHalt, instr_eq_halt]

theorem not_holdsHalt_bubble : ¬ Latch.bubble.HoldsHalt := fun h => Bool.noConfusion h.1

theorem not_isOccupied_bubble : ¬ Latch.bubble.IsOccupied := fun h => Bool.noConfusion h.1

theorem not_isStalled_bubble : ¬ Latch.bubble.IsStalled := fun h => Bool.noConfusion h.1

theorem isOccupied_payload (l : Latch) : l.payload.IsOccupied := ⟨rfl, rfl, rfl⟩

/-- An occupant to act on, in a latch that is never stalled. -/
theorem isOccupied_of_active {l : Latch} {i : Instr} (hs : l.IsEmpty ∨ l.IsOccupied ∨ l.IsShut)
    (h : l.active = some i) : l.IsOccupied ∧ l.instr = i := by
  obtain ⟨he, hint, hi⟩ := active_eq_some.1 h
  obtain rfl | ho | hshut := hs
  · cases he
  · exact ⟨ho, hi⟩
  · rw [hshut.2.2.1] at hint
    cases hint

/-- No occupant to act on, in a latch that is never stalled. -/
theorem isEmpty_or_isShut_of_inactive {l : Latch} (hs : l.IsEmpty ∨ l.IsOccupied ∨ l.IsShut)
    (h : l.active = none) : l.IsEmpty ∨ l.IsShut := by
  obtain he | ho | hshut := hs
  · exact .inl he
  · obtain ⟨he, -, hint⟩ := ho
    obtain he' | hint' := active_eq_none.1 h
    · rw [he] at he'; cases he'
    · rw [hint] at hint'; cases hint'
  · exact .inr hshut

theorem writes_of_occupied {l : Latch} (h : l.empty = false) (r : Reg) : l.writes r = decide (r ∈ destsOf l.instr) := by
  simp [Latch.writes, h]

theorem isProducer_of_occupied {l : Latch} (h : l.empty = false) : l.isProducer = isFlagProducer l.instr := by
  simp [Latch.isProducer, h]

/-- HALT writes no register (`40_pipeline_stages.md` R76). -/
theorem writes_of_halt {l : Latch} (h : l.instr = .halt) (r : Reg) : l.writes r = false := by
  simp [Latch.writes, h, destsOf]

/-- HALT is no flag producer (`40_pipeline_stages.md` R78). -/
theorem isProducer_of_halt {l : Latch} (h : l.instr = .halt) : l.isProducer = false := by
  simp [Latch.isProducer, h, isFlagProducer]

/-- A latch handed on unchanged in what it holds writes what it wrote. -/
theorem writes_congr {l l' : Latch} (he : l'.empty = l.empty) (hi : l'.instr = l.instr) (r : Reg) :
    l'.writes r = l.writes r := by
  simp [Latch.writes, he, hi]

theorem isProducer_congr {l l' : Latch} (he : l'.empty = l.empty) (hi : l'.instr = l.instr) :
    l'.isProducer = l.isProducer := by
  simp [Latch.isProducer, he, hi]

theorem executedLatch_instr (i : Instr) (l : Latch) (z n p : Bool) : (executedLatch i l z n p).instr = l.instr := by
  cases i <;> rfl

theorem executedLatch_pc (i : Instr) (l : Latch) (z n p : Bool) : (executedLatch i l z n p).pc = l.pc := by
  cases i <;> rfl

/-! ### The part of the invariant that is about control -/

/-- The invariant without its three clauses about values (one condition code, data memory), which no rule of the
latches, the tracker or the counters needs: it holds from every launch state, whatever codes and memory a caller
supplies. -/
structure State.Control (s : State) : Prop where
  readyTracks : ∀ r : Reg, s.isReady r = !(s.lE.writes r || s.lM.writes r || s.lW.writes r)
  flagsTrack : s.flagsValid = !(s.lM.isProducer || s.lW.isProducer)
  fetchShape : s.lF.IsEmpty ∨ s.lF.IsStalled ∨ s.lF.IsShutFetch
  decodeShape : s.lD.IsEmpty ∨ s.lD.IsOccupied ∨ s.lD.IsStalled ∨ s.lD.IsShut
  executeShape : s.lE.IsEmpty ∨ s.lE.IsOccupied ∨ s.lE.IsShut
  memoryShape : s.lM.IsEmpty ∨ s.lM.IsOccupied ∨ s.lM.IsShut
  writebackShape : s.lW.IsEmpty ∨ s.lW.IsOccupied
  noSkip : s.fSkip = false
  heldFetch : s.lF.IsStalled → s.lD.IsStalled
  stalledDecode : s.lD.IsStalled → s.lE.IsEmpty ∧ s.lD.opcode ≠ .HALT
  shutTogether : s.lD.interrupted = s.lF.interrupted
  shutExecute : s.lE.interrupted = true → s.lD.interrupted = true
  shutMemory : s.lM.interrupted = true → s.lE.interrupted = true
  haltInExecute : s.lE.HoldsHalt → s.lD.interrupted = true
  haltInMemory : s.lM.HoldsHalt → s.lE.interrupted = true
  haltInWriteback : s.lW.HoldsHalt → s.lM.interrupted = true
  dispatchFreesFetch : s.lE.IsOccupied → s.lF.empty = true
  countBelowClock : s.icount + s.lW.load + 1 ≤ s.clk
  atBoundary : s.phase = .fetch

theorem State.Inv.control {s : State} (h : s.Inv) : s.Control := { h with }

/-! ### What holds between the stage functions of a pass -/

/-- The control invariant as it stands between two stage functions of a pass: the rules of holding are those of a pass under
way, where Decode may have let go of what Fetch still holds, and a redirect may hold Fetch; `flags_valid` waits for a
producer in Execute; `CLK` has not ticked. -/
structure State.PassInv (s : State) : Prop where
  readyTracks : ∀ r : Reg, s.isReady r = !(s.lE.writes r || s.lM.writes r || s.lW.writes r)
  flagsTrack : s.lE.isProducer = false → s.flagsValid = !(s.lM.isProducer || s.lW.isProducer)
  fetchShape : s.lF.IsEmpty ∨ s.lF.IsStalled ∨ s.lF.IsShutFetch
  decodeShape : s.lD.IsEmpty ∨ s.lD.IsOccupied ∨ s.lD.IsStalled ∨ s.lD.IsShut
  executeShape : s.lE.IsEmpty ∨ s.lE.IsOccupied ∨ s.lE.IsShut
  memoryShape : s.lM.IsEmpty ∨ s.lM.IsOccupied ∨ s.lM.IsShut
  writebackShape : s.lW.IsEmpty ∨ s.lW.IsOccupied
  skipFlushed : s.fSkip = true → s.lF.IsEmpty ∧ s.lD.IsEmpty
  heldFetch : s.lF.IsStalled → s.lD.IsStalled ∨ s.lD.IsEmpty
  stalledDecode : s.lD.IsStalled → s.lE.IsEmpty ∧ s.lD.opcode ≠ .HALT
  shutTogether : s.lD.interrupted = s.lF.interrupted
  shutExecute : s.lE.interrupted = true → s.lD.interrupted = true
  shutMemory : s.lM.interrupted = true → s.lE.interrupted = true
  haltInExecute : s.lE.HoldsHalt → s.lD.interrupted = true
  haltInMemory : s.lM.HoldsHalt → s.lE.interrupted = true
  haltInWriteback : s.lW.HoldsHalt → s.lM.interrupted = true
  countBelowClock : s.icount + 1 ≤ s.clk
  atBoundary : s.phase = .fetch

/-- The invariant at a boundary holds at the start of the pass. -/
theorem State.Control.passInv {s : State} (h : s.Control) : s.PassInv :=
  { h with
    flagsTrack := fun _ => h.flagsTrack
    skipFlushed := fun hs => by rw [h.noSkip] at hs; cases hs
    heldFetch := fun hs => .inl (h.heldFetch hs)
    countBelowClock := by have := h.countBelowClock; omega }

/-! ### Writeback -/

/-- The tracker after a commit: the destinations are released, unless a younger writer holds them
(`40_pipeline_stages.md` R94). -/
theorem readyTracks_committed {s : State}
    (h : ∀ r : Reg, s.isReady r = !(s.lE.writes r || s.lM.writes r || s.lW.writes r)) (r : Reg) :
    (s.committed s.lW.instr).isReady r = !(s.lE.writes r || s.lM.writes r) := by
  refine (State.isReady_retire _ _ r).trans ?_
  by_cases hr : r ∈ destsOf s.lW.instr
  · rw [if_pos hr]
  · have hW : s.lW.writes r = false := by simp [Latch.writes, hr]
    have hready : State.isReady { s with x := commitRegs s.lW.instr s.lW s.x } r = s.isReady r := rfl
    rw [if_neg hr, hready, h r, hW, Bool.or_false]

/-- `flags_valid` after a commit, when Execute holds no producer (`40_pipeline_stages.md` R95). -/
theorem flagsTrack_committed {s : State} (h : s.flagsValid = !(s.lM.isProducer || s.lW.isProducer))
    (hocc : s.lW.empty = false) (hE : s.lE.isProducer = false) :
    (s.committed s.lW.instr).flagsValid = !s.lM.isProducer := by
  rw [State.flagsValid_committed, h, hE, ← isProducer_of_occupied hocc]
  cases s.lM.isProducer <;> cases s.lW.isProducer <;> rfl

/-- Writeback keeps the invariant of a pass and empties its latch. -/
theorem writebackStage_passInv {s t : State} (hinv : s.Control) (hh : s.haltCommits = false)
    (h : writebackStage s = .next t) : t.PassInv ∧ t.lW = Latch.bubble := by
  obtain ⟨hact, rfl⟩ | ⟨i, hi, hact, rfl⟩ := writebackStage_completed hh h
  · refine ⟨hinv.passInv, ?_⟩
    obtain he | ho := hinv.writebackShape
    · exact he
    · obtain he | hs := active_eq_none.1 hact
      · rw [ho.1] at he; cases he
      · rw [ho.2.2] at hs; cases hs
  · obtain ⟨hocc, -, rfl⟩ := active_eq_some.1 hact
    refine ⟨?_, rfl⟩
    exact { hinv.passInv with
      readyTracks := fun r => (readyTracks_committed hinv.readyTracks r).trans
        (by simp [State.committed])
      flagsTrack := fun hE => (flagsTrack_committed hinv.flagsTrack hocc hE).trans
        (by simp [State.committed])
      writebackShape := .inl rfl
      haltInWriteback := fun hW => absurd hW not_holdsHalt_bubble
      countBelowClock := by
        have := hinv.countBelowClock
        simp only [Latch.load, hocc, Bool.false_eq_true, if_false] at this
        exact this
      atBoundary := rfl }

/-! ### Memory -/

/-- What Memory does in a pass without a fault. -/
theorem memoryStage_next {s t : State} (h : memoryStage s = .next t) :
    (s.lM.active = none ∧ t = s) ∨ (s.lM.active = some .halt ∧ t = s.haltAccessed) ∨
    (∃ i, i ≠ .halt ∧ s.lM.active = some i ∧ s.misses i = false ∧ t = (s.accessed i).during .fetch) := by
  obtain ⟨hact, hs⟩ | ⟨hact, hs⟩ | ⟨i, hi, hact, hmiss, hs⟩ | ⟨i, -, -, hs⟩ := memoryStage_cases s <;>
    rw [hs] at h <;> cases h
  · exact .inl ⟨hact, rfl⟩
  · exact .inr (.inl ⟨hact, rfl⟩)
  · exact .inr (.inr ⟨i, hi, hact, hmiss, rfl⟩)

/-- Memory keeps the invariant of a pass and leaves nothing to act on in its latch. -/
theorem memoryStage_passInv {s t : State} (hinv : s.PassInv) (hW : s.lW = Latch.bubble)
    (h : memoryStage s = .next t) : t.PassInv ∧ (t.lM.IsEmpty ∨ t.lM.IsShut) := by
  obtain ⟨hact, rfl⟩ | ⟨hact, rfl⟩ | ⟨i, hi, hact, hmiss, rfl⟩ := memoryStage_next h
  · exact ⟨hinv, isEmpty_or_isShut_of_inactive hinv.memoryShape hact⟩
  · obtain ⟨⟨he, hst, hint⟩, hhalt⟩ := isOccupied_of_active hinv.memoryShape hact
    have hshut : ({ s.lM with interrupted := true } : Latch).IsShut := ⟨he, hst, rfl, instr_eq_halt.1 hhalt⟩
    have hW' : s.lM.payload.instr = .halt := hhalt
    have hM' : ({ s.lM with interrupted := true } : Latch).instr = .halt := hhalt
    refine ⟨?_, .inr hshut⟩
    exact { hinv with
      readyTracks := fun r => (hinv.readyTracks r).trans (by
        simp [State.haltAccessed, hW, writes_of_halt hhalt, writes_of_halt hW', writes_of_halt hM'])
      flagsTrack := fun hE => (hinv.flagsTrack hE).trans (by
        simp [State.haltAccessed, hW, isProducer_of_halt hhalt, isProducer_of_halt hW', isProducer_of_halt hM'])
      memoryShape := .inr (.inr hshut)
      writebackShape := .inr (isOccupied_payload _)
      shutMemory := fun _ => hinv.haltInMemory (holdsHalt_iff.2 ⟨he, hhalt⟩)
      haltInMemory := fun _ => hinv.haltInMemory (holdsHalt_iff.2 ⟨he, hhalt⟩)
      haltInWriteback := fun _ => rfl
      atBoundary := rfl }
  · obtain ⟨⟨he, -, -⟩, rfl⟩ := isOccupied_of_active hinv.memoryShape hact
    have hlW : (s.accessed s.lM.instr).lW.empty = s.lM.empty := he.symm
    have hinstr : (s.accessed s.lM.instr).lW.instr = s.lM.instr := rfl
    refine ⟨?_, .inl rfl⟩
    exact { hinv with
      readyTracks := fun r => (hinv.readyTracks r).trans (by
        rw [← writes_congr hlW hinstr r, hW]
        simp [State.accessed])
      flagsTrack := fun hE => (hinv.flagsTrack hE).trans (by
        rw [← isProducer_congr hlW hinstr, hW]
        simp [State.accessed])
      memoryShape := .inl rfl
      writebackShape := .inr (isOccupied_payload _)
      shutMemory := Bool.noConfusion
      haltInMemory := fun hM => absurd hM not_holdsHalt_bubble
      haltInWriteback := fun hW => absurd (holdsHalt_iff.1 hW).2 hi
      atBoundary := rfl }

/-! ### Execute -/

/-- What Execute does short of the squash: condition codes, `flags_valid`, the latch handed on. -/
def State.handedOn (s : State) (i : Instr) : State :=
  { s with
    z := (aluResult i s.lE).elim s.z zeroFlag
    n := (aluResult i s.lE).elim s.n negativeFlag
    p := (aluResult i s.lE).elim s.p positiveFlag
    flagsValid := s.flagsValid && !isFlagProducer i
    lM := (executedLatch i s.lE s.z s.n s.p).payload
    lE := Latch.bubble }

/-- Execute hands its latch on and then, on a redirect, squashes what is behind (`40_pipeline_stages.md` R89). -/
theorem State.executed_eq (s : State) (i : Instr) :
    s.executed i = (redirectOf i s.lE s.z s.n s.p).elim (s.handedOn i) (s.handedOn i).redirect := by
  unfold State.executed
  cases redirectOf i s.lE s.z s.n s.p <;> simp [State.handedOn, State.redirect]

/-- A redirect keeps the invariant of a pass, once Execute has handed its latch on. -/
theorem State.PassInv.redirect {s : State} (h : s.PassInv) (hE : s.lE = Latch.bubble) (target : Word) :
    (s.redirect target).PassInv :=
  { h with
    fetchShape := .inl rfl
    decodeShape := .inl rfl
    skipFlushed := fun _ => ⟨rfl, rfl⟩
    heldFetch := fun hF => absurd hF not_isStalled_bubble
    stalledDecode := fun hD => absurd hD not_isStalled_bubble
    shutTogether := rfl
    shutExecute := fun hint => by rw [State.redirect_lE, hE] at hint; cases hint
    haltInExecute := fun hint => by rw [State.redirect_lE, hE] at hint; exact absurd hint not_holdsHalt_bubble }

/-- Before an occupant of Execute that is not shut down, Memory is empty once it has handed its own on. -/
theorem State.PassInv.memory_isEmpty {s : State} (h : s.PassInv) (hM : s.lM.IsEmpty ∨ s.lM.IsShut)
    (hE : s.lE.IsOccupied) : s.lM = Latch.bubble := by
  obtain he | hs := hM
  · exact he
  · have := h.shutMemory hs.2.2.1
    rw [hE.2.2] at this
    cases this

/-- Handing on an instruction other than HALT keeps the invariant of a pass. -/
theorem State.PassInv.handedOn {s : State} (h : s.PassInv) (hM : s.lM = Latch.bubble) (hE : s.lE.IsOccupied)
    (hi : s.lE.instr ≠ .halt) : (s.handedOn s.lE.instr).PassInv := by
  have hempty : (s.handedOn s.lE.instr).lM.empty = s.lE.empty := hE.1.symm
  have hinstr : (s.handedOn s.lE.instr).lM.instr = s.lE.instr := executedLatch_instr ..
  exact { h with
    readyTracks := fun r => (h.readyTracks r).trans (by
      rw [writes_congr hempty hinstr r, hM]
      simp [State.handedOn])
    flagsTrack := fun _ => by
      rw [isProducer_congr hempty hinstr]
      cases hp : s.lE.isProducer
      · have hfv := h.flagsTrack hp
        rw [isProducer_of_occupied hE.1] at hp
        simpa [State.handedOn, hp, hM] using hfv
      · rw [isProducer_of_occupied hE.1] at hp
        simp [State.handedOn, hp]
    executeShape := .inl rfl
    memoryShape := .inr (.inl (isOccupied_payload _))
    stalledDecode := fun hD => ⟨rfl, (h.stalledDecode hD).2⟩
    shutExecute := Bool.noConfusion
    shutMemory := Bool.noConfusion
    haltInExecute := fun hhalt => absurd hhalt not_holdsHalt_bubble
    haltInMemory := fun hhalt => absurd (hinstr.symm.trans (holdsHalt_iff.1 hhalt).2) hi
    haltInWriteback := fun hhalt => by
      have := h.haltInWriteback hhalt
      rw [hM] at this
      cases this }

/-- HALT going on from Execute keeps the invariant of a pass. -/
theorem State.PassInv.haltExecuted {s : State} (h : s.PassInv) (hM : s.lM = Latch.bubble) (hE : s.lE.IsOccupied)
    (hi : s.lE.instr = .halt) : s.haltExecuted.PassInv ∧ s.haltExecuted.lE.IsShut := by
  have hshut : s.haltExecuted.lE.IsShut := ⟨hE.1, hE.2.1, rfl, instr_eq_halt.1 hi⟩
  have hlM : s.haltExecuted.lM.instr = .halt := hi
  have hlE : s.haltExecuted.lE.instr = .halt := hi
  have hD : s.lD.interrupted = true := h.haltInExecute (holdsHalt_iff.2 ⟨hE.1, hi⟩)
  refine ⟨?_, hshut⟩
  exact { h with
    readyTracks := fun r => (h.readyTracks r).trans (by
      rw [writes_of_halt hi, writes_of_halt hlM, writes_of_halt hlE, hM]
      simp [State.haltExecuted])
    flagsTrack := fun _ => (h.flagsTrack (isProducer_of_halt hi)).trans (by
      rw [isProducer_of_halt hlM, hM]
      simp [State.haltExecuted])
    executeShape := .inr (.inr hshut)
    memoryShape := .inr (.inl (isOccupied_payload _))
    stalledDecode := fun hst => by cases hst.2.2.symm.trans hD
    shutExecute := fun _ => hD
    shutMemory := Bool.noConfusion
    haltInExecute := fun _ => hD
    haltInMemory := fun _ => rfl
    haltInWriteback := fun hhalt => by
      have := h.haltInWriteback hhalt
      rw [hM] at this
      cases this
    atBoundary := rfl }

/-- Execute keeps the invariant of a pass and leaves nothing to act on in its latch. -/
theorem executeStage_passInv {s t : State} (hinv : s.PassInv) (hM : s.lM.IsEmpty ∨ s.lM.IsShut)
    (h : executeStage s = .next t) : t.PassInv ∧ (t.lE.IsEmpty ∨ t.lE.IsShut) := by
  obtain ⟨hact, rfl⟩ | ⟨hact, rfl⟩ | ⟨i, hi, hact, -, rfl⟩ := executeStage_next h
  · refine ⟨hinv, isEmpty_or_isShut_of_inactive hinv.executeShape ?_⟩
    have hst : t.lE.stalled = false := by
      obtain he | ho | hs := hinv.executeShape
      · rw [he]; rfl
      · exact ho.2.1
      · exact hs.2.1
    simpa [State.executing, hst] using hact
  · obtain ⟨hE, hhalt⟩ := isOccupied_of_active hinv.executeShape (executing_eq_some.1 hact).2
    obtain ⟨ht, hshut⟩ := hinv.haltExecuted (hinv.memory_isEmpty hM hE) hE hhalt
    exact ⟨ht, .inr hshut⟩
  · obtain ⟨hE, rfl⟩ := isOccupied_of_active hinv.executeShape (executing_eq_some.1 hact).2
    have hon := hinv.handedOn (hinv.memory_isEmpty hM hE) hE hi
    refine ⟨?_, .inl rfl⟩
    rw [State.executed_eq]
    cases redirectOf s.lE.instr s.lE s.z s.n s.p with
    | none => exact { hon with atBoundary := rfl }
    | some target => exact { hon.redirect rfl target with atBoundary := rfl }

/-! ### Decode -/

/-- Before an occupant of Decode that is not shut down, Execute is empty once it has handed its own on. -/
theorem State.PassInv.execute_isEmpty {s : State} (h : s.PassInv) (hE : s.lE.IsEmpty ∨ s.lE.IsShut)
    (hD : s.lD.interrupted = false) : s.lE = Latch.bubble := by
  obtain he | hs := hE
  · exact he
  · have := h.shutExecute hs.2.2.1
    rw [hD] at this
    cases this

/-- Keeping the occupant of Decode keeps the invariant of a pass. -/
theorem State.PassInv.stallDecode {s : State} (h : s.PassInv) (hE : s.lE = Latch.bubble) (he : s.lD.empty = false)
    (hint : s.lD.interrupted = false) (hi : s.lD.instr ≠ .halt) :
    s.stallDecode.PassInv ∧ s.stallDecode.lD.IsStalled := by
  have hst : s.stallDecode.lD.IsStalled := ⟨he, rfl, hint⟩
  refine ⟨?_, hst⟩
  exact { h with
    decodeShape := .inr (.inr (.inl hst))
    skipFlushed := fun hs => by
      have := (h.skipFlushed hs).2
      rw [this] at he
      cases he
    heldFetch := fun _ => .inl hst
    stalledDecode := fun _ => ⟨hE, fun hop => hi (instr_eq_halt.2 hop)⟩ }

/-- A dispatch keeps the invariant of a pass. -/
theorem State.PassInv.dispatched {s : State} (h : s.PassInv) (hE : s.lE = Latch.bubble) (hint : s.lD.interrupted = false)
    (hi : s.lD.instr ≠ .halt) : (s.dispatched s.lD.instr).PassInv :=
  { h with
    readyTracks := fun r => by
      have hlE : (s.dispatched s.lD.instr).lE.writes r = decide (r ∈ destsOf s.lD.instr) := writes_of_occupied rfl r
      rw [State.isReady_dispatched, h.readyTracks r, hE, hlE]
      by_cases hr : r ∈ destsOf s.lD.instr <;> simp [hr]
    flagsTrack := fun _ => h.flagsTrack (by rw [hE]; rfl)
    decodeShape := .inl rfl
    executeShape := .inr (.inl (isOccupied_payload _))
    skipFlushed := fun hs => ⟨(h.skipFlushed hs).1, rfl⟩
    heldFetch := fun _ => .inr rfl
    stalledDecode := fun hD => absurd hD not_isStalled_bubble
    shutTogether := hint.symm.trans h.shutTogether
    shutExecute := Bool.noConfusion
    shutMemory := fun hM => by
      have := h.shutMemory hM
      rw [hE] at this
      cases this
    haltInExecute := fun hhalt => absurd (holdsHalt_iff.1 hhalt).2 hi
    haltInMemory := fun hhalt => by
      have := h.haltInMemory hhalt
      rw [hE] at this
      cases this }

/-- A HALT in Decode finds Fetch with nothing held: HALT never waits (`40_pipeline_stages.md` R84). -/
theorem State.PassInv.fetch_isEmpty_of_halt {s : State} (h : s.PassInv) (he : s.lD.empty = false)
    (hint : s.lD.interrupted = false) (hi : s.lD.instr = .halt) : s.lF = Latch.bubble := by
  obtain hF | hF | hF := h.fetchShape
  · exact hF
  · obtain hst | hD := h.heldFetch hF
    · exact absurd (instr_eq_halt.1 hi) (h.stalledDecode hst).2
    · rw [hD] at he
      cases he
  · cases hF.2.2.symm.trans (h.shutTogether.symm.trans hint)

/-- The dispatch of HALT keeps the invariant of a pass. -/
theorem State.PassInv.dispatchedHalt {s : State} (h : s.PassInv) (hE : s.lE = Latch.bubble) (he : s.lD.empty = false)
    (hint : s.lD.interrupted = false) (hi : s.lD.instr = .halt) :
    (s.dispatchedHalt .halt).PassInv ∧ (s.dispatchedHalt .halt).lD.IsShut := by
  have hshut : (s.dispatchedHalt .halt).lD.IsShut := ⟨he, rfl, rfl, instr_eq_halt.1 hi⟩
  have hF := h.fetch_isEmpty_of_halt he hint hi
  have hshutF : (s.dispatchedHalt .halt).lF.IsShutFetch := by
    rw [State.dispatchedHalt_lF, hF]
    exact ⟨rfl, rfl, rfl⟩
  have hlE : (s.dispatchedHalt .halt).lE.instr = .halt := hi
  refine ⟨?_, hshut⟩
  exact { h with
    readyTracks := fun r => (h.readyTracks r).trans (by
      rw [writes_of_halt hlE, hE]
      simp)
    flagsTrack := fun _ => h.flagsTrack (by rw [hE]; rfl)
    fetchShape := .inr (.inr hshutF)
    decodeShape := .inr (.inr (.inr hshut))
    executeShape := .inr (.inl (isOccupied_payload _))
    skipFlushed := fun hs => by
      have := (h.skipFlushed hs).2
      rw [this] at he
      cases he
    heldFetch := fun hst => by cases hst.2.2
    stalledDecode := fun hst => by cases hst.2.2
    shutTogether := rfl
    shutExecute := Bool.noConfusion
    shutMemory := fun hM => by
      have := h.shutMemory hM
      rw [hE] at this
      cases this
    haltInExecute := fun _ => rfl
    haltInMemory := fun hhalt => by
      have := h.haltInMemory hhalt
      rw [hE] at this
      cases this }

/-- Nothing in Decode to act on: the latch is empty or shut down. -/
theorem isEmpty_or_isShut_of_decode_inactive {l : Latch}
    (hs : l.IsEmpty ∨ l.IsOccupied ∨ l.IsStalled ∨ l.IsShut) (h : l.active = none) : l.IsEmpty ∨ l.IsShut := by
  obtain he | hint := active_eq_none.1 h
  · obtain hs | hs | hs | hs := hs
    · exact .inl hs
    all_goals cases he.symm.trans hs.1
  · obtain rfl | hs | hs | hs := hs
    · exact .inl rfl
    · cases hint.symm.trans hs.2.2
    · cases hint.symm.trans hs.2.2
    · exact .inr hs

/-- What Decode does. -/
theorem decodeStage_next {s t : State} (h : decodeStage s = .next t) :
    (s.lD.active = none ∧ t = s) ∨
    (∃ i, s.lD.active = some i ∧ (s.executeHolds = true ∨ s.canDispatch i = false) ∧
      t = s.stallDecode.during .fetch) ∨
    (s.lD.active = some .halt ∧ s.executeHolds = false ∧ t = (s.dispatchedHalt .halt).during .fetch) ∨
    (∃ i, i ≠ .halt ∧ s.lD.active = some i ∧ s.executeHolds = false ∧ s.canDispatch i = true ∧
      t = (s.dispatched i).during .fetch) := by
  simpa only [h, Host.Outcome.next.injEq] using decodeStage_cases s

/-- Decode keeps the invariant of a pass, and keeps an occupant only as stalled or shut down. -/
theorem decodeStage_passInv {s t : State} (hinv : s.PassInv) (hE : s.lE.IsEmpty ∨ s.lE.IsShut)
    (h : decodeStage s = .next t) : t.PassInv ∧ (t.lD.IsEmpty ∨ t.lD.IsStalled ∨ t.lD.IsShut) := by
  obtain ⟨hact, rfl⟩ | ⟨i, hact, hstall, rfl⟩ | ⟨hact, -, rfl⟩ | ⟨i, hi, hact, -, -, rfl⟩ := decodeStage_next h
  · exact ⟨hinv, (isEmpty_or_isShut_of_decode_inactive hinv.decodeShape hact).imp_right .inr⟩
  · obtain ⟨he, hint, rfl⟩ := active_eq_some.1 hact
    have hE' := hinv.execute_isEmpty hE hint
    have hi : s.lD.instr ≠ .halt := by
      intro hhalt
      rw [hhalt, canDispatch_halt, State.executeHolds, hE'] at hstall
      simp at hstall
    obtain ⟨ht, hst⟩ := hinv.stallDecode hE' he hint hi
    exact ⟨{ ht with atBoundary := rfl }, .inr (.inl hst)⟩
  · obtain ⟨he, hint, hhalt⟩ := active_eq_some.1 hact
    obtain ⟨ht, hshut⟩ := hinv.dispatchedHalt (hinv.execute_isEmpty hE hint) he hint hhalt
    exact ⟨{ ht with atBoundary := rfl }, .inr (.inr hshut)⟩
  · obtain ⟨-, hint, rfl⟩ := active_eq_some.1 hact
    exact ⟨{ hinv.dispatched (hinv.execute_isEmpty hE hint) hint hi with atBoundary := rfl }, .inl rfl⟩

/-! ### Fetch -/

/-- What Fetch does to the latches: nothing, with nothing held; or it holds an instruction behind a stalled Decode; or
it hands one on (`40_pipeline_stages.md` R79 to R81). -/
theorem fetchStage_latches {s t : State} (hshape : s.lF.IsEmpty ∨ s.lF.IsStalled ∨ s.lF.IsShutFetch)
    (hskip : s.fSkip = true → s.lF.IsEmpty ∧ s.lD.IsEmpty) (h : fetchStage s = .next t) :
    t.fSkip = false ∧
    ((s.lF.empty = true ∧ t.lF = s.lF ∧ t.lD = s.lD) ∨
      (s.lF.interrupted = false ∧ s.lD.stalled = true ∧ t.lF.IsStalled ∧ t.lD = s.lD) ∨
      (s.lF.interrupted = false ∧ s.lD.stalled = false ∧ t.lF = Latch.bubble ∧ t.lD.IsOccupied)) := by
  obtain ⟨hint, hs⟩ | ⟨-, hskip', hs⟩ | ⟨-, hskip', he, -, hs⟩ | ⟨r, hint, hskip', he, -, hs⟩ |
    ⟨hint, hskip', he, hs⟩ := fetchStage_cases s <;> rw [h, Host.Outcome.next.injEq] at hs <;> subst hs
  · obtain hF | hF | hF := hshape
    · rw [hF] at hint
      cases hint
    · cases hint.symm.trans hF.2.2
    · refine ⟨?_, .inl ⟨hF.1, rfl, rfl⟩⟩
      by_contra hsk
      have := (hskip (by simpa using hsk)).1
      rw [this] at hint
      cases hint
  · have := (hskip hskip').1
    exact ⟨rfl, .inl ⟨by rw [this]; rfl, rfl, rfl⟩⟩
  · exact ⟨hskip', .inl ⟨he, rfl, rfl⟩⟩
  · refine ⟨by simpa using hskip', .inr ?_⟩
    cases hst : s.lD.stalled
    · exact .inr ⟨hint, rfl, by simp [hst], by simp [hst, Latch.IsOccupied]⟩
    · exact .inl ⟨hint, rfl, by simp [hst, Latch.IsStalled], by simp [hst]⟩
  · refine ⟨by simpa using hskip', .inr ?_⟩
    cases hst : s.lD.stalled
    · exact .inr ⟨hint, rfl, by simp [hst], by simp [hst, Latch.IsOccupied]⟩
    · exact .inl ⟨hint, rfl, by simp [hst, Latch.IsStalled, he, hint], by simp [hst]⟩

theorem Latch.load_le_one (l : Latch) : l.load ≤ 1 := by
  unfold Latch.load
  split <;> omega

theorem fetchStage_phase {s t : State} (hp : s.phase = .fetch) (h : fetchStage s = .next t) : t.phase = .fetch := by
  obtain ⟨-, hs⟩ | ⟨-, -, hs⟩ | ⟨-, -, -, -, hs⟩ | ⟨r, -, -, -, -, hs⟩ | ⟨-, -, -, hs⟩ := fetchStage_cases s <;>
    rw [h, Host.Outcome.next.injEq] at hs <;> subst hs
  · exact hp
  · exact hp
  · exact hp
  · rfl
  · rfl

/-- Fetch and the tick of the clock turn the invariant of a pass into the invariant at the boundary. -/
theorem fetchStage_control {s t : State} (hinv : s.PassInv)
    (hflags : s.flagsValid = !(s.lM.isProducer || s.lW.isProducer))
    (hD : s.lD.IsEmpty ∨ s.lD.IsStalled ∨ s.lD.IsShut) (h : fetchStage s = .next t) : t.tick.Control := by
  obtain ⟨hskip, hlatches⟩ := fetchStage_latches hinv.fetchShape hinv.skipFlushed h
  have hphase := fetchStage_phase hinv.atBoundary h
  have hcount : s.icount + s.lW.load + 1 ≤ s.clk + 1 := by
    have := hinv.countBelowClock
    have := s.lW.load_le_one
    omega
  rw [fetchStage_frame h, hskip, hphase]
  obtain ⟨he, hF, hD'⟩ | ⟨hint, hst, hF, hD'⟩ | ⟨hint, hst, hF, hocc⟩ := hlatches
  · rw [hF, hD']
    exact { hinv with
      flagsTrack := hflags
      noSkip := rfl
      heldFetch := fun hF => by cases he.symm.trans hF.1
      dispatchFreesFetch := fun _ => he
      countBelowClock := hcount
      atBoundary := rfl }
  · have hstalled : s.lD.IsStalled := by
      obtain hD | hD | hD := hD
      · rw [hD] at hst; cases hst
      · exact hD
      · cases hst.symm.trans hD.2.1
    rw [hD']
    exact { hinv with
      flagsTrack := hflags
      fetchShape := .inr (.inl hF)
      noSkip := rfl
      heldFetch := fun _ => hstalled
      shutTogether := hstalled.2.2.trans hF.2.2.symm
      dispatchFreesFetch := fun hE => by
        rw [State.tick_lE, (hinv.stalledDecode hstalled).1] at hE
        exact absurd hE not_isOccupied_bubble
      countBelowClock := hcount
      atBoundary := rfl }
  · have hDint : s.lD.interrupted = false := hinv.shutTogether.trans hint
    rw [hF]
    exact { hinv with
      flagsTrack := hflags
      fetchShape := .inl rfl
      decodeShape := .inr (.inl hocc)
      noSkip := rfl
      heldFetch := fun hF => absurd hF not_isStalled_bubble
      stalledDecode := fun hst => by cases hocc.2.1.symm.trans hst.2.1
      shutTogether := hocc.2.2
      shutExecute := fun hE => by cases hDint.symm.trans (hinv.shutExecute hE)
      haltInExecute := fun hE => by cases hDint.symm.trans (hinv.haltInExecute hE)
      dispatchFreesFetch := fun _ => rfl
      countBelowClock := hcount
      atBoundary := rfl }

/-! ### A pass, a step -/

/-- What the invariant gives along a completed pass: the invariant of the pass at each stage, and each latch free when
the stage before it hands on. -/
structure PassesInv (s1 s2 s3 s4 : State) : Prop where
  afterWriteback : s1.PassInv
  writebackEmpty : s1.lW = Latch.bubble
  afterMemory : s2.PassInv
  memoryFree : s2.lM.IsEmpty ∨ s2.lM.IsShut
  afterExecute : s3.PassInv
  executeFree : s3.lE.IsEmpty ∨ s3.lE.IsShut
  afterDecode : s4.PassInv
  decodeFree : s4.lD.IsEmpty ∨ s4.lD.IsStalled ∨ s4.lD.IsShut

theorem Passes.inv {s s1 s2 s3 s4 s5 : State} (hinv : s.Control) (hh : s.haltCommits = false)
    (h : Passes s s1 s2 s3 s4 s5) : PassesInv s1 s2 s3 s4 := by
  obtain ⟨hinv1, hW⟩ := writebackStage_passInv hinv hh h.writeback
  obtain ⟨hinv2, hM⟩ := memoryStage_passInv hinv1 hW h.memory
  obtain ⟨hinv3, hE⟩ := executeStage_passInv hinv2 hM h.execute
  obtain ⟨hinv4, hD⟩ := decodeStage_passInv hinv3 hE h.decode
  exact ⟨hinv1, hW, hinv2, hM, hinv3, hE, hinv4, hD⟩

/-- Execute emptied or shut down, `flags_valid` is settled for the rest of the pass. -/
theorem Passes.flagsTrack {s s1 s2 s3 s4 s5 : State} (h : Passes s s1 s2 s3 s4 s5) (hinv : PassesInv s1 s2 s3 s4) :
    s4.flagsValid = !(s4.lM.isProducer || s4.lW.isProducer) := by
  have hE : s3.lE.isProducer = false := by
    obtain hE | hE := hinv.executeFree
    · rw [hE]; rfl
    · exact isProducer_of_halt (instr_eq_halt.2 hE.2.2.2)
  rw [decodeStage_frame h.decode]
  exact hinv.afterExecute.flagsTrack hE

/-- A completed pass keeps the control invariant. -/
theorem Passes.tick_control {s s1 s2 s3 s4 s5 : State} (hinv : s.Control) (hh : s.haltCommits = false)
    (h : Passes s s1 s2 s3 s4 s5) : s5.tick.Control :=
  have hpasses := h.inv hinv hh
  fetchStage_control hpasses.afterDecode (h.flagsTrack hpasses) hpasses.decodeFree h.fetch

/-- The commit of HALT keeps the control invariant: HALT writes nothing and is no producer. -/
theorem State.Control.haltCommitted {s : State} (hinv : s.Control) (h : s.lW.active = some .halt) :
    s.haltCommitted.Control := by
  obtain ⟨he, -, hhalt⟩ := active_eq_some.1 h
  exact { hinv with
    readyTracks := fun r => (hinv.readyTracks r).trans (by
      rw [writes_of_halt hhalt]
      simp [State.haltCommitted])
    flagsTrack := hinv.flagsTrack.trans (by
      rw [isProducer_of_halt hhalt]
      simp [State.haltCommitted])
    writebackShape := .inl rfl
    haltInWriteback := fun hW => absurd hW not_holdsHalt_bubble
    countBelowClock := by
      have := hinv.countBelowClock
      simp only [Latch.load, he, Bool.false_eq_true, if_false] at this
      exact this
    atBoundary := rfl }

/-- Every step keeps the control invariant. -/
theorem State.Control.step {s t : State} (hinv : s.Control) (hstep : step s = .next t) : t.Control := by
  cases stepOutcome hstep with
  | terminal => exact hinv
  | halted _ h => exact hinv.haltCommitted h
  | completed _ hh _ _ h => exact h.tick_control hinv hh
  | _ => exact { hinv with }

/-! ### The clauses about values -/

/-- At most one condition code stays set: a step keeps the codes or sets exactly one (`10_state.md` R28). -/
theorem oneFlag_of_step {s t : State} (hstep : step s = .next t)
    (h : (s.z && s.n) = false ∧ (s.z && s.p) = false ∧ (s.n && s.p) = false) :
    (t.z && t.n) = false ∧ (t.z && t.p) = false ∧ (t.n && t.p) = false := by
  obtain ⟨hz, hn, hp⟩ | ⟨i, -, -, -, -, -, hodd, hthree⟩ := onlyFlagWritersInExecuteChangeTheCodes s t hstep
  · rwa [hz, hn, hp]
  · revert hodd hthree
    cases t.z <;> cases t.n <;> cases t.p <;> simp

/-- The access of Memory keeps data memory canonical and inside its size. -/
theorem State.dmem_accessed {s : State} {i : Instr} (hmiss : s.misses i = false) (hwf : Memory.wf s.dmem = true)
    (hin : Memory.within s.inputs.dmemWords s.dmem = true) :
    Memory.wf (s.accessed i).dmem = true ∧ Memory.within s.inputs.dmemWords (s.accessed i).dmem = true := by
  cases hst : isStore i with
  | false => simp [State.accessed, hst, hwf, hin]
  | true =>
    have hok : s.dataAddressOk s.lM.memoryAddress = true := by
      simpa [State.misses, isMemoryOp_of_isStore hst] using hmiss
    rw [s.dataAddressOk_iff] at hok
    simp only [State.accessed, hst, if_true]
    exact ⟨Memory.wf_write hwf _ _, Memory.within_write hin (by omega) _⟩

/-- Every step keeps data memory canonical and inside its size. -/
theorem dmem_of_step {s t : State} (hstep : step s = .next t) (hwf : Memory.wf s.dmem = true)
    (hin : Memory.within s.inputs.dmemWords s.dmem = true) :
    Memory.wf t.dmem = true ∧ Memory.within t.inputs.dmemWords t.dmem = true := by
  rw [inputsAreNeverWritten.1 s t hstep]
  cases stepOutcome hstep with
  | @completed s1 s2 _ _ _ _ _ _ _ h =>
    have hdmem : s1.dmem = s.dmem := by rw [writebackStage_frame h.writeback]
    have hinputs : s1.inputs = s.inputs := by rw [writebackStage_frame h.writeback]
    rw [State.tick_dmem, h.dmem_eq]
    rw [← hdmem] at hwf hin
    rw [← hinputs] at hin ⊢
    obtain ⟨-, rfl⟩ | ⟨-, rfl⟩ | ⟨i, -, -, hmiss, rfl⟩ := memoryStage_next h.memory
    · exact ⟨hwf, hin⟩
    · exact ⟨hwf, hin⟩
    · exact State.dmem_accessed hmiss hwf hin
  | _ => exact ⟨hwf, hin⟩

/-- Settles O48: every step keeps the control invariant, the clause on the condition codes and those on data memory. -/
theorem everyStepKeepsTheInvariant : Obligations.EveryStepKeepsTheInvariant := by
  intro s t hinv hstep
  obtain ⟨hwf, hin⟩ := dmem_of_step hstep hinv.memoryWf hinv.memoryWithin
  exact { hinv.control.step hstep with
    oneFlag := oneFlag_of_step hstep hinv.oneFlag
    memoryWf := hwf
    memoryWithin := hin }

/-- A launch state has every latch empty and every register ready. -/
theorem State.Launched.control {s : State} (h : s.Launched) : s.Control where
  readyTracks := fun r => by simp [h.allReady, h.executeEmpty, h.memoryEmpty, h.writebackEmpty]
  flagsTrack := by simp [h.flagsValid, h.memoryEmpty, h.writebackEmpty]
  fetchShape := .inl h.fetchEmpty
  decodeShape := .inl h.decodeEmpty
  executeShape := .inl h.executeEmpty
  memoryShape := .inl h.memoryEmpty
  writebackShape := .inl h.writebackEmpty
  noSkip := h.noSkip
  heldFetch := fun hF => absurd (h.fetchEmpty ▸ hF) not_isStalled_bubble
  stalledDecode := fun hD => absurd (h.decodeEmpty ▸ hD) not_isStalled_bubble
  shutTogether := by rw [h.decodeEmpty, h.fetchEmpty]
  shutExecute := fun hE => by rw [h.executeEmpty] at hE; cases hE
  shutMemory := fun hM => by rw [h.memoryEmpty] at hM; cases hM
  haltInExecute := fun hE => absurd (h.executeEmpty ▸ hE) not_holdsHalt_bubble
  haltInMemory := fun hM => absurd (h.memoryEmpty ▸ hM) not_holdsHalt_bubble
  haltInWriteback := fun hW => absurd (h.writebackEmpty ▸ hW) not_holdsHalt_bubble
  dispatchFreesFetch := fun _ => by rw [h.fetchEmpty]; rfl
  countBelowClock := by rw [h.count, h.clock, h.writebackEmpty]; decide
  atBoundary := h.boundary

theorem State.inv_resetWith (inputs : Inputs) : (State.resetWith inputs).Inv :=
  { (State.launched_resetWith inputs).control with
    oneFlag := ⟨rfl, rfl, rfl⟩, memoryWf := rfl, memoryWithin := rfl }

/-- Settles O47: reset and construction give launch states with an empty memory and no condition code set. -/
theorem invariantAtReset : Obligations.InvariantAtReset := by
  refine ⟨State.inv_resetWith _, fun p s hs => ?_, fun s h hwf hin hzn hzp hnp =>
    { h.control with oneFlag := ⟨hzn, hzp, hnp⟩, memoryWf := hwf, memoryWithin := hin }⟩
  obtain ⟨-, records, -, rfl⟩ := construct_eq_some.1 hs
  exact State.inv_resetWith _

end Sys2Proof.Machine

/-! PROOFS. What the invariant says about a pass: `10_state.md` R24, `60_exceptions.md` R141,
`70_reset_and_hazards.md` R154, R155. -/

namespace Sys2Proof.Machine

/-! ### How occupants move in a pass -/

/-- Execute hands its occupant to `L_M`, at its own address. -/
theorem executeStage_lM {s t : State} {i : Instr} (hact : s.executing = some i) (h : executeStage s = .next t) :
    t.lM.IsOccupied ∧ t.lM.instr = i ∧ t.lM.pc = s.lE.pc := by
  have hinstr : s.lE.instr = i := (active_eq_some.1 (executing_eq_some.1 hact).2).2.2
  obtain ⟨hact', -⟩ | ⟨hact', rfl⟩ | ⟨j, -, hact', -, rfl⟩ := executeStage_next h
  · cases hact.symm.trans hact'
  · exact ⟨isOccupied_payload _, hinstr, rfl⟩
  · obtain rfl : i = j := Option.some.inj (hact.symm.trans hact')
    exact ⟨isOccupied_payload _, (executedLatch_instr ..).trans hinstr, executedLatch_pc ..⟩

/-- Memory hands its occupant to `L_W`, at its own address. -/
theorem memoryStage_lW {s t : State} {i : Instr} (hact : s.lM.active = some i) (h : memoryStage s = .next t) :
    t.lW.IsOccupied ∧ t.lW.instr = i ∧ t.lW.pc = s.lM.pc := by
  have hinstr : s.lM.instr = i := (active_eq_some.1 hact).2.2
  obtain ⟨hact', -⟩ | ⟨hact', rfl⟩ | ⟨j, -, hact', -, rfl⟩ := memoryStage_next h
  · cases hact.symm.trans hact'
  · exact ⟨isOccupied_payload _, hinstr, rfl⟩
  · exact ⟨isOccupied_payload _, hinstr, rfl⟩

/-- A stage with an occupant to act on acts on it: nothing behind Decode is stalled. -/
theorem State.Control.executing_eq {s : State} (h : s.Control) : s.executing = s.lE.active := by
  have hst : s.lE.stalled = false := by
    obtain he | ho | hs := h.executeShape
    · rw [he]; rfl
    · exact ho.2.1
    · exact hs.2.1
  simp [State.executing, hst]

/-- The latches of a completed pass: what each stage worked on and left. -/
theorem Passes.latches {s s1 s2 s3 s4 s5 : State} (h : Passes s s1 s2 s3 s4 s5) :
    s1.lM = s.lM ∧ s2.lE = s.lE ∧ s3.lW = s2.lW ∧ s5.lW = s2.lW ∧ s5.lM = s3.lM ∧ s5.lE = s4.lE := by
  rw [fetchStage_frame h.fetch, decodeStage_frame h.decode, executeStage_frame h.execute, memoryStage_frame h.memory,
    writebackStage_frame h.writeback]
  exact ⟨rfl, rfl, rfl, rfl, rfl, rfl⟩

/-- The occupants of Execute and Memory move on in a completed pass. -/
theorem Passes.advance {s s1 s2 s3 s4 s5 : State} (hinv : s.Control) (h : Passes s s1 s2 s3 s4 s5) :
    (∀ i, s.lE.active = some i → s5.lM.IsOccupied ∧ s5.lM.instr = i ∧ s5.lM.pc = s.lE.pc) ∧
    (∀ i, s.lM.active = some i → s5.lW.IsOccupied ∧ s5.lW.instr = i ∧ s5.lW.pc = s.lM.pc) := by
  obtain ⟨hM, hE, -, hW5, hM5, -⟩ := h.latches
  refine ⟨fun i hi => ?_, fun i hi => ?_⟩
  · rw [hM5, ← hE]
    exact executeStage_lM (h.execute_reads.1.trans (hinv.executing_eq.trans hi)) h.execute
  · rw [hW5, ← hM]
    exact memoryStage_lW (hM.symm ▸ hi) h.memory

/-- Settles O51: each occupant moves on, and a commit is counted when `L_W` had an occupant. -/
theorem instructionsBehindDecodeAdvanceEveryPass : Obligations.InstructionsBehindDecodeAdvanceEveryPass := by
  intro s t i hinv hw hstep hr
  obtain ⟨-, hh, s1, s2, s3, s4, s5, h, rfl⟩ := completed_of_running hstep hr
  obtain ⟨hE, hM⟩ := h.advance hinv.control
  obtain ⟨-, -, hcount⟩ := h.counters hh
  refine ⟨fun hi => ?_, fun hi => ?_, fun hi => ?_, fun hi => ?_⟩
  · obtain ⟨hocc, hinstr, hpc⟩ := hE i hi
    exact ⟨hinstr, hpc, hocc.1⟩
  · obtain ⟨hocc, hinstr, hpc⟩ := hM i hi
    exact ⟨hinstr, hpc, hocc.1⟩
  · simpa [hi] using hcount
  · simpa [hi] using hcount

/-! ### What Decode waits for -/

theorem writes_of_free {l : Latch} (h : l.IsEmpty ∨ l.IsShut) (r : Reg) : l.writes r = false := by
  obtain h | h := h
  · rw [h]; rfl
  · exact writes_of_halt (instr_eq_halt.2 h.2.2.2) r

theorem isProducer_of_free {l : Latch} (h : l.IsEmpty ∨ l.IsShut) : l.isProducer = false := by
  obtain h | h := h
  · rw [h]; rfl
  · exact isProducer_of_halt (instr_eq_halt.2 h.2.2.2)

/-- In a completed pass what `L_E` and `L_M` held to write and to produce moves to `L_M` and `L_W`, and Execute is
free when Decode looks. -/
theorem Passes.pending {s s1 s2 s3 s4 s5 : State} (hinv : s.Control) (hh : s.haltCommits = false)
    (h : Passes s s1 s2 s3 s4 s5) :
    (∀ r, s3.lM.writes r = s.lE.writes r) ∧ (∀ r, s3.lW.writes r = s.lM.writes r) ∧
    s3.lM.isProducer = s.lE.isProducer ∧ s3.lW.isProducer = s.lM.isProducer := by
  have hpasses := h.inv hinv hh
  obtain ⟨hM, hE, hW3, hW5, hM5, -⟩ := h.latches
  obtain ⟨hadvE, hadvM⟩ := h.advance hinv
  rw [hM5] at hadvE
  rw [hW5] at hadvM
  have hlM : s3.lM.writes = s.lE.writes ∧ s3.lM.isProducer = s.lE.isProducer := by
    cases hact : s.lE.active with
    | some i =>
      obtain ⟨hocc, hinstr, -⟩ := hadvE i hact
      obtain ⟨he, -, hi⟩ := active_eq_some.1 hact
      exact ⟨funext (writes_congr (hocc.1.trans he.symm) (hinstr.trans hi.symm)),
        isProducer_congr (hocc.1.trans he.symm) (hinstr.trans hi.symm)⟩
    | none =>
      have hfree := isEmpty_or_isShut_of_inactive hinv.executeShape hact
      have hidle : s2.executing = none := h.execute_reads.1.trans (hinv.executing_eq.trans hact)
      obtain rfl : s2 = s3 := Host.Outcome.next.inj ((executeStage_of_idle hidle).symm.trans h.execute)
      exact ⟨funext fun r => (writes_of_free hpasses.memoryFree r).trans (writes_of_free hfree r).symm,
        (isProducer_of_free hpasses.memoryFree).trans (isProducer_of_free hfree).symm⟩
  have hlW : s3.lW.writes = s.lM.writes ∧ s3.lW.isProducer = s.lM.isProducer := by
    rw [hW3]
    cases hact : s.lM.active with
    | some i =>
      obtain ⟨hocc, hinstr, -⟩ := hadvM i hact
      obtain ⟨he, -, hi⟩ := active_eq_some.1 hact
      exact ⟨funext (writes_congr (hocc.1.trans he.symm) (hinstr.trans hi.symm)),
        isProducer_congr (hocc.1.trans he.symm) (hinstr.trans hi.symm)⟩
    | none =>
      have hfree := isEmpty_or_isShut_of_inactive hinv.memoryShape hact
      obtain rfl : s1 = s2 :=
        Host.Outcome.next.inj ((memoryStage_of_inactive (hM.symm ▸ hact)).symm.trans h.memory)
      rw [hpasses.writebackEmpty]
      exact ⟨funext fun r => (writes_of_free hfree r).symm, (isProducer_of_free hfree).symm⟩
  exact ⟨congrFun hlM.1, congrFun hlW.1, hlM.2, hlW.2⟩

/-- An instruction in Decode has to wait for one in Execute or Memory (`70_reset_and_hazards.md` R155). -/
def State.waitsFor (s : State) (i : Instr) : Prop :=
  (∃ r ∈ srcsOf i, s.lE.writes r = true ∨ s.lM.writes r = true) ∨
    (isConditionalBranch i = true ∧ (s.lE.isProducer = true ∨ s.lM.isProducer = true))

/-- What Decode finds when it looks: the test fails exactly when the instruction waits for one that was in Execute or
Memory when the pass began. -/
theorem Passes.canDispatch_iff {s s1 s2 s3 s4 s5 : State} (hinv : s.Control) (hh : s.haltCommits = false)
    (h : Passes s s1 s2 s3 s4 s5) (i : Instr) : s3.canDispatch i = true ↔ ¬ s.waitsFor i := by
  have hpasses := h.inv hinv hh
  obtain ⟨hM, hW, hMp, hWp⟩ := h.pending hinv hh
  have hready (r : Reg) : s3.isReady r = !(s.lE.writes r || s.lM.writes r) := by
    rw [hpasses.afterExecute.readyTracks r, writes_of_free hpasses.executeFree r, hM, hW, Bool.false_or]
  have hflags : s3.flagsValid = !(s.lE.isProducer || s.lM.isProducer) := by
    rw [hpasses.afterExecute.flagsTrack (isProducer_of_free hpasses.executeFree), hMp, hWp]
  rw [Machine.canDispatch_iff, hflags]
  simp only [hready, State.waitsFor, Bool.not_eq_true', Bool.or_eq_false_iff, not_or, not_exists, not_and,
    Bool.not_eq_true]

/-- Without a redirect Decode looks at the occupant the pass began with. -/
theorem Passes.lD_of_no_redirect {s s1 s2 s3 s4 s5 : State} (h : Passes s s1 s2 s3 s4 s5)
    (hredirect : s.redirectTarget = none) : s3.lD = s.lD := by
  obtain ⟨-, -, hD3, -⟩ := executeStage_no_redirect (h.redirectTarget_eq.trans hredirect) h.execute
  rw [hD3, memoryStage_frame h.memory, writebackStage_frame h.writeback]

/-- A stalled instruction stays in `L_D` to the end of the pass (`40_pipeline_stages.md` R79, R81). -/
theorem fetchStage_keeps_stalled {s t : State} (hinv : s.PassInv) (hst : s.lD.IsStalled) (h : fetchStage s = .next t) :
    t.lD = s.lD := by
  obtain ⟨-, ⟨-, -, hD⟩ | ⟨-, -, -, hD⟩ | ⟨-, hst', -⟩⟩ := fetchStage_latches hinv.fetchShape hinv.skipFlushed h
  · exact hD
  · exact hD
  · cases hst'.symm.trans hst.2.1

/-- Decode's choice in a completed pass without a redirect: an instruction that has to wait is stalled, any other is
dispatched. -/
theorem Passes.decode_choice {s s1 s2 s3 s4 s5 : State} {i : Instr} (hinv : s.Control) (hh : s.haltCommits = false)
    (h : Passes s s1 s2 s3 s4 s5) (hact : s.lD.active = some i) (hredirect : s.redirectTarget = none) :
    (s.waitsFor i ∧ s5.lD.IsStalled ∧ s5.lD.instr = i) ∨
    (¬ s.waitsFor i ∧ s5.lE = (s3.readOperands i).payload) := by
  have hpasses := h.inv hinv hh
  obtain ⟨-, -, -, -, -, hE5⟩ := h.latches
  have hcan := h.canDispatch_iff hinv hh i
  rw [← h.lD_of_no_redirect hredirect] at hact
  obtain ⟨he, hint, hinstr⟩ := active_eq_some.1 hact
  have hE : s3.executeHolds = false := by
    rw [State.executeHolds, hpasses.afterExecute.execute_isEmpty hpasses.executeFree hint]
    rfl
  rw [hE5]
  obtain ⟨hact', -⟩ | ⟨j, hact', hstall, h4⟩ | ⟨hact', -, h4⟩ | ⟨j, -, hact', -, hc, h4⟩ :=
    decodeStage_next h.decode <;> cases hact.symm.trans hact'
  · have hst : s4.lD.IsStalled := by rw [h4]; exact ⟨he, rfl, hint⟩
    have hinstr4 : s4.lD.instr = i := by rw [h4]; exact hinstr
    have hwaits : s.waitsFor i := by
      rw [hE] at hstall
      simpa [hstall.resolve_left Bool.noConfusion] using hcan
    rw [fetchStage_keeps_stalled hpasses.afterDecode hst h.fetch]
    exact .inl ⟨hwaits, hst, hinstr4⟩
  · rw [h4]
    exact .inr ⟨hcan.1 (canDispatch_halt s3), rfl⟩
  · rw [h4]
    exact .inr ⟨hcan.1 hc, rfl⟩

/-- With a stalled Decode there is nothing in Execute, so nothing redirects (`70_reset_and_hazards.md` R153 item 5). -/
theorem State.Control.of_stalled {s : State} (h : s.Control) (hst : s.lD.IsStalled) :
    s.lD.active = some s.lD.instr ∧ s.lE = Latch.bubble ∧ s.redirectTarget = none := by
  have hE : s.lE = Latch.bubble := (h.stalledDecode hst).1
  refine ⟨active_eq_some.2 ⟨hst.1, hst.2.2, rfl⟩, hE, ?_⟩
  rw [redirectTarget_eq, h.executing_eq, hE]
  rfl

/-- A pass in which Decode keeps an instruction: it is stalled, Execute is left empty, and what it may still wait for
is in Memory. -/
theorem Passes.stalls {s s1 s2 s3 s4 s5 : State} {i : Instr} (hinv : s.Control) (hh : s.haltCommits = false)
    (h : Passes s s1 s2 s3 s4 s5) (hact : s.lD.active = some i) (hredirect : s.redirectTarget = none)
    (hwaits : s.waitsFor i) :
    s5.lD.IsStalled ∧ s5.lD.instr = i ∧ (∀ r, s5.lM.writes r = s.lE.writes r) ∧
      s5.lM.isProducer = s.lE.isProducer := by
  obtain ⟨-, hst, hinstr⟩ | ⟨hnot, -⟩ := h.decode_choice hinv hh hact hredirect
  · obtain ⟨hM, -, hMp, -⟩ := h.pending hinv hh
    obtain ⟨-, -, -, -, hM5, -⟩ := h.latches
    exact ⟨hst, hinstr, fun r => hM5 ▸ hM r, hM5 ▸ hMp⟩
  · exact absurd hwaits hnot

/-- Settles O54: behind its producer the reader waits while that is in Execute and while it is in Memory; then nothing
it waits for is left before Writeback, and Decode dispatches it. -/
theorem aReaderBehindItsProducerWaitsTwoPasses : Obligations.AReaderBehindItsProducerWaitsTwoPasses := by
  intro s u1 u2 u3 i hinv h1 h2 h3 hr3 hact hredirect hdep
  obtain ⟨hw3, hh3, s31, s32, s33, s34, s35, p3, rfl⟩ := completed_of_running h3 hr3
  obtain ⟨hw2, hh2, s21, s22, s23, s24, s25, p2, rfl⟩ := completed_of_running h2 hw3.running
  obtain ⟨-, hh1, s11, s12, s13, s14, s15, p1, rfl⟩ := completed_of_running h1 hw2.running
  have hinv1 := p1.tick_control hinv.control hh1
  have hinv2 := p2.tick_control hinv1 hh2
  have hwaits : s.waitsFor i := hdep.imp (fun ⟨r, hr, hw⟩ => ⟨r, hr, .inl hw⟩) (fun ⟨hb, hp⟩ => ⟨hb, .inl hp⟩)
  obtain ⟨hst1, hinstr1, hM1, hMp1⟩ := p1.stalls hinv.control hh1 hact hredirect hwaits
  obtain ⟨hact1, hE1, hred1⟩ := hinv1.of_stalled hst1
  rw [State.tick_lD, hinstr1] at hact1
  have hwaits1 : s15.tick.waitsFor i :=
    hdep.imp (fun ⟨r, hr, hw⟩ => ⟨r, hr, .inr ((hM1 r).trans hw)⟩) (fun ⟨hb, hp⟩ => ⟨hb, .inr (hMp1.trans hp)⟩)
  obtain ⟨hst2, hinstr2, hM2, hMp2⟩ := p2.stalls hinv1 hh2 hact1 hred1 hwaits1
  obtain ⟨hact2, hE2, hred2⟩ := hinv2.of_stalled hst2
  rw [State.tick_lD, hinstr2] at hact2
  rw [State.tick_lE] at hE1 hE2 hMp2
  have hM2' (r : Reg) : s25.lM.writes r = false := by rw [hM2, State.tick_lE, hE1]; rfl
  have hfree2 : ¬ s25.tick.waitsFor i := by
    simp [State.waitsFor, hE2, hM2', hMp2, hE1]
  obtain ⟨hwaits2, -⟩ | ⟨-, hE3⟩ := p3.decode_choice hinv2 hh3 hact2 hred2
  · exact absurd hwaits2 hfree2
  · have hlD : s33.lD.instr = i := by rw [p3.lD_of_no_redirect hred2, State.tick_lD, hinstr2]
    rw [State.tick_lE, hE3]
    exact ⟨hst1, hinstr1, hst2, hinstr2, isOccupied_payload _, hlD⟩

/-! ### No stale operand -/

/-- Nothing is dispatched in a pass with a redirect. -/
theorem Passes.no_redirect_of_dispatch {s s1 s2 s3 s4 s5 : State} (h : Passes s s1 s2 s3 s4 s5)
    (hocc : s5.lE.IsOccupied) : s.redirectTarget = none := by
  by_contra hne
  obtain ⟨target, ht⟩ := Option.ne_none_iff_exists'.1 hne
  obtain ⟨-, hF, hD, hE, hskip⟩ := executeStage_redirect (h.redirectTarget_eq.trans ht) h.execute
  rw [after_redirect hF hD hskip h.decode h.fetch] at hocc
  exact absurd (hE ▸ hocc) not_isOccupied_bubble

/-- Settles O50: the dispatched instruction passed Decode's test, so nothing ahead still writes one of its sources,
and the values read are those of a register file that the rest of the pass leaves alone. -/
theorem noInstructionReadsAStaleOperand : Obligations.NoInstructionReadsAStaleOperand := by
  intro s t i hinv hw hstep hr hact hocc
  obtain ⟨-, hh, s1, s2, s3, s4, s5, h, rfl⟩ := completed_of_running hstep hr
  have hredirect := h.no_redirect_of_dispatch hocc
  obtain ⟨-, hst, -⟩ | ⟨hfree, hE⟩ := h.decode_choice hinv.control hh hact hredirect
  · rw [((h.tick_control hinv.control hh).of_stalled hst).2.1] at hocc
    exact absurd hocc not_isOccupied_bubble
  obtain ⟨hM, hW, hMp, hWp⟩ := h.pending hinv.control hh
  obtain ⟨-, -, hW3, hW5, hM5, -⟩ := h.latches
  have hx : s5.x = s3.x := by rw [fetchStage_frame h.fetch, decodeStage_frame h.decode]
  have hread (r : Reg) : s5.readReg r = s3.readReg r := State.readReg_congr hx r
  simp only [State.waitsFor, not_or, not_exists, not_and, Bool.not_eq_true] at hfree
  obtain ⟨hregs, hbranch⟩ := hfree
  simp only [State.tick_lE, State.tick_lM, State.tick_lW, hE, hM5, hW5, ← hW3, hM, hW, hMp, hWp]
  refine ⟨hregs, fun r hr => ?_, fun r hr => ?_, hbranch, ?_⟩
  · simp only [State.readOperands, hr]
    exact (hread r).symm
  · simp only [State.readOperands, hr]
    exact (hread r).symm
  · exact (congrArg Latch.instr (h.lD_of_no_redirect hredirect)).trans (active_eq_some.1 hact).2.2

/-! ### The state a HALT leaves -/

theorem State.Control.isShut_of_interrupted {s : State} (h : s.Control) :
    (s.lD.interrupted = true → s.lD.IsShut) ∧ (s.lE.interrupted = true → s.lE.IsShut) ∧
    (s.lM.interrupted = true → s.lM.IsShut) ∧ (s.lF.interrupted = true → s.lF.IsShutFetch) := by
  refine ⟨fun hint => ?_, fun hint => ?_, fun hint => ?_, fun hint => ?_⟩
  · obtain hD | hD | hD | hD := h.decodeShape
    · rw [hD] at hint; cases hint
    · cases hint.symm.trans hD.2.2
    · cases hint.symm.trans hD.2.2
    · exact hD
  · obtain hE | hE | hE := h.executeShape
    · rw [hE] at hint; cases hint
    · cases hint.symm.trans hE.2.2
    · exact hE
  · obtain hM | hM | hM := h.memoryShape
    · rw [hM] at hint; cases hint
    · cases hint.symm.trans hM.2.2
    · exact hM
  · obtain hF | hF | hF := h.fetchShape
    · rw [hF] at hint; cases hint
    · cases hint.symm.trans hF.2.2
    · exact hF

/-- With a HALT in Writeback every stage before it is shut down (`40_pipeline_stages.md` R97). -/
theorem State.Control.shut_of_halt {s : State} (h : s.Control) (hact : s.lW.active = some .halt) :
    s.lD.IsShut ∧ s.lE.IsShut ∧ s.lM.IsShut ∧ s.lF.IsShutFetch := by
  obtain ⟨he, -, hhalt⟩ := active_eq_some.1 hact
  have hM := h.haltInWriteback (holdsHalt_iff.2 ⟨he, hhalt⟩)
  have hE := h.shutMemory hM
  have hD := h.shutExecute hE
  obtain ⟨shutD, shutE, shutM, shutF⟩ := h.isShut_of_interrupted
  exact ⟨shutD hD, shutE hE, shutM hM, shutF (h.shutTogether ▸ hD)⟩

/-- Settles O52: the shutdown went ahead of the HALT, and HALT's own commit changes a count and the run state. -/
theorem frozenStateAfterHalt : Obligations.FrozenStateAfterHalt := by
  intro s t hinv hw hstep ht
  obtain ⟨-, hact, rfl⟩ := haltCommitted_of_halted hw.running hstep ht
  obtain ⟨hD, hE, hM, hF⟩ := hinv.control.shut_of_halt hact
  have hhalt : s.lW.instr = .halt := (active_eq_some.1 hact).2.2
  refine ⟨hD, hE, hM, rfl, hF, fun r => ?_, ?_, rfl, rfl, rfl, rfl, rfl⟩
  · refine (hinv.readyTracks r).trans ?_
    rw [writes_of_free (.inr hE), writes_of_free (.inr hM), writes_of_halt hhalt]
    rfl
  · refine hinv.flagsTrack.trans ?_
    rw [isProducer_of_free (.inr hM), isProducer_of_halt hhalt]
    rfl

end Sys2Proof.Machine

/-! PROOFS. What holds along a run: `70_reset_and_hazards.md` R150, R153, R158. -/

namespace Sys2Proof.Machine

/-! ### Runs -/

/-- A run of one more step is a run and a step. -/
theorem run_succ {M : Host.Core} {s t : M.State} {k : Nat} :
    M.run (k + 1) s = .next t ↔ ∃ u, M.run k s = .next u ∧ M.step u = .next t := by
  induction k generalizing s with
  | zero =>
    simp only [Host.Core.run, Host.Outcome.next.injEq, exists_eq_left']
    cases M.step s <;> simp
  | succ k ih =>
    cases hs : M.step s with
    | next s' =>
      have hrun (j : Nat) : M.run (j + 1) s = M.run j s' := by rw [Host.Core.run, hs]
      simp only [hrun, ih]
    | fault c => simp [Host.Core.run, hs]
    | refused r => simp [Host.Core.run, hs]

/-- What holds at the start of a run and is kept by each of its steps holds at its end. -/
theorem run_induction {P : Nat → State → Prop} {s : State} (hstart : P 0 s)
    (hkeep : ∀ (k : Nat) (u v : State), Host.Core.run Sys2Proof.core k s = .next u → P k u → step u = .next v →
      P (k + 1) v)
    {k : Nat} {t : State} (h : Host.Core.run Sys2Proof.core k s = .next t) : P k t := by
  induction k generalizing t with
  | zero =>
    cases h
    exact hstart
  | succ k ih =>
    obtain ⟨u, hu, hstep⟩ := run_succ.1 h
    exact hkeep k u t hu (ih hu) hstep

/-- Along a run from a launch state the control invariant holds. -/
theorem control_of_run {s t : State} {k : Nat} (hs : s.Control)
    (h : Host.Core.run Sys2Proof.core k s = .next t) : t.Control :=
  run_induction (P := fun _ t => t.Control) hs (fun _ _ _ _ hu hstep => hu.step hstep) h

/-- Along a run the whole invariant holds. -/
theorem inv_of_run {s t : State} {k : Nat} (hs : s.Inv)
    (h : Host.Core.run Sys2Proof.core k s = .next t) : t.Inv :=
  run_induction (P := fun _ t => t.Inv) hs
    (fun _ u v _ hu hstep => everyStepKeepsTheInvariant u v hu hstep) h

/-! ### How the pipeline fills -/

/-- 1 for an occupant to act on, 0 for none. -/
def Latch.count (l : Latch) : Nat := if l.active.isSome then 1 else 0

theorem count_of_active_none {l : Latch} (h : l.active = none) : l.count = 0 := by simp [Latch.count, h]

theorem count_of_active_some {l : Latch} {i : Instr} (h : l.active = some i) : l.count = 1 := by simp [Latch.count, h]

theorem active_of_occupied {l : Latch} (h : l.IsOccupied) : l.active = some l.instr :=
  active_eq_some.2 ⟨h.1, h.2.2, rfl⟩

theorem inactive_of_free {l : Latch} (h : l.IsEmpty ∨ l.IsShut) : l.active = none := by
  obtain h | h := h
  · rw [h]; rfl
  · exact active_eq_none.2 (.inr h.2.2.1)

/-- In a completed pass the occupants of Memory and Execute move on, and only one of Decode enters Execute. -/
theorem Passes.counts {s s1 s2 s3 s4 s5 : State} (hinv : s.Control) (hh : s.haltCommits = false)
    (h : Passes s s1 s2 s3 s4 s5) :
    s5.lW.count = s.lM.count ∧ s5.lM.count = s.lE.count ∧
      (∀ i, s5.lE.active = some i → s.lD.active = some i) := by
  have hpasses := h.inv hinv hh
  obtain ⟨hadvE, hadvM⟩ := h.advance hinv
  obtain ⟨hM, hE, hW3, hW5, hM5, hE5⟩ := h.latches
  refine ⟨?_, ?_, fun i hi => ?_⟩
  · cases hact : s.lM.active with
    | some i => rw [count_of_active_some hact, count_of_active_some (active_of_occupied (hadvM i hact).1)]
    | none =>
      obtain rfl : s1 = s2 := Host.Outcome.next.inj ((memoryStage_of_inactive (hM.symm ▸ hact)).symm.trans h.memory)
      rw [count_of_active_none hact, hW5, hpasses.writebackEmpty]
      rfl
  · cases hact : s.lE.active with
    | some i => rw [count_of_active_some hact, count_of_active_some (active_of_occupied (hadvE i hact).1)]
    | none =>
      have hidle : s2.executing = none := h.execute_reads.1.trans (hinv.executing_eq.trans hact)
      obtain rfl : s2 = s3 := Host.Outcome.next.inj ((executeStage_of_idle hidle).symm.trans h.execute)
      rw [count_of_active_none hact, hM5, count_of_active_none (inactive_of_free hpasses.memoryFree)]
  · have hocc := (isOccupied_of_active (h.tick_control hinv hh).executeShape hi).1
    have hD := h.lD_of_no_redirect (h.no_redirect_of_dispatch hocc)
    rw [hE5] at hi
    have hfree := inactive_of_free hpasses.executeFree
    obtain ⟨-, rfl⟩ | ⟨j, -, -, rfl⟩ | ⟨hact, -, rfl⟩ | ⟨j, -, hact, -, -, rfl⟩ := decodeStage_next h.decode
    · cases hfree.symm.trans hi
    · cases hfree.symm.trans hi
    · rw [← hD, hact]
      exact (active_eq_some.1 hact).2.2.symm.trans (active_eq_some.1 hi).2.2 ▸ rfl
    · rw [← hD, hact]
      exact (active_eq_some.1 hact).2.2.symm.trans (active_eq_some.1 hi).2.2 ▸ rfl

/-- An instruction in a stage has taken a pass for each stage before it, and so has each one ahead of it: the clock is
at least that far (`70_reset_and_hazards.md` R154, R158). -/
structure State.Filling (s : State) : Prop where
  writeback : s.lW.active.isSome = true → s.icount + 5 ≤ s.clk
  memory : s.lM.active.isSome = true → s.icount + s.lW.count + 4 ≤ s.clk
  execute : s.lE.active.isSome = true → s.icount + s.lW.count + s.lM.count + 3 ≤ s.clk
  decode : s.lD.active.isSome = true → s.icount + s.lW.count + s.lM.count + s.lE.count + 2 ≤ s.clk
  entered : s.icount + s.lW.count + s.lM.count + s.lE.count + 1 ≤ s.clk

theorem count_eq_one {l : Latch} : l.count = 1 ↔ l.active.isSome = true := by
  unfold Latch.count
  split <;> simp_all

theorem State.Launched.filling {s : State} (h : s.Launched) : s.Filling where
  writeback := by simp [h.writebackEmpty]
  memory := by simp [h.memoryEmpty]
  execute := by simp [h.executeEmpty]
  decode := by simp [h.decodeEmpty]
  entered := by simp [h.count, h.clock, h.writebackEmpty, h.memoryEmpty, h.executeEmpty, Latch.count]

theorem State.Filling.step {s t : State} (hinv : s.Control) (hfill : s.Filling) (hstep : step s = .next t) :
    t.Filling := by
  cases stepOutcome hstep with
  | terminal => exact hfill
  | halted _ hact =>
    obtain ⟨hD, hE, hM, -⟩ := hinv.shut_of_halt hact
    have hentered := hfill.entered
    rw [count_of_active_some hact] at hentered
    exact {
      writeback := by simp [State.haltCommitted]
      memory := by simp [State.haltCommitted, inactive_of_free (.inr hM)]
      execute := by simp [State.haltCommitted, inactive_of_free (.inr hE)]
      decode := by simp [State.haltCommitted, inactive_of_free (.inr hD)]
      entered := hentered }
  | @completed s1 s2 s3 s4 s5 _ hh _ _ h =>
    obtain ⟨hW, hM, hE⟩ := h.counts hinv hh
    obtain ⟨-, hclk, hcount⟩ := h.counters hh
    rw [← Latch.count] at hcount
    have hentered := hfill.entered
    have hfromDecode : s5.lE.active.isSome = true → s.lD.active.isSome = true := fun hact => by
      obtain ⟨i, hi⟩ := Option.isSome_iff_exists.1 hact
      rw [hE i hi, Option.isSome_some]
    have hlE : s.icount + s.lW.count + s.lM.count + s.lE.count + s5.lE.count + 1 ≤ s.clk := by
      by_cases hact : s5.lE.active.isSome = true
      · rw [count_eq_one.2 hact]
        exact hfill.decode (hfromDecode hact)
      · rw [Bool.not_eq_true, Option.isSome_eq_false_iff, Option.isNone_iff_eq_none] at hact
        rwa [count_of_active_none hact]
    constructor <;> simp only [State.tick_lW, State.tick_lM, State.tick_lE, State.tick_lD, State.tick_icount,
      State.tick_clk, hclk, hcount, hW, hM]
    · intro hact
      have := hfill.memory (count_eq_one.1 (hW ▸ count_eq_one.2 hact))
      omega
    · intro hact
      have := hfill.execute (count_eq_one.1 (hM ▸ count_eq_one.2 hact))
      omega
    · intro hact
      have := hfill.decode (hfromDecode hact)
      omega
    · intro _
      omega
    · omega
  | _ => exact { hfill with }

/-- Along a run from a launch state the control invariant holds and the pipeline fills stage by stage. -/
theorem filling_of_run {s t : State} {k : Nat} (hs : s.Launched)
    (h : Host.Core.run Sys2Proof.core k s = .next t) : t.Filling :=
  run_induction (P := fun _ t => t.Filling) hs.filling
    (fun _ _ _ hrun hu hstep => hu.step (control_of_run hs.control hrun) hstep) h

/-- Settles O55: the HALT that commits was in Writeback of a filled pipeline. -/
theorem haltedClockIsAtLeastTheCountPlusFour : Obligations.HaltedClockIsAtLeastTheCountPlusFour := by
  intro s t k hs hrun
  refine run_induction (P := fun _ t => t.runState = .halted → t.icount + 4 ≤ t.clk) (fun hr => ?_)
    (fun j u v hu hcount hstep hr => ?_) hrun
  · cases hs.running.symm.trans hr
  · by_cases hur : u.runState = .running
    · obtain ⟨-, hact, rfl⟩ := haltCommitted_of_halted hur hstep hr
      have := (filling_of_run hs hu).writeback (by rw [hact]; rfl)
      simp only [State.haltCommitted]
      omega
    · rw [step_of_terminal hur, Host.Outcome.next.injEq] at hstep
      subst hstep
      exact hcount hr

/-- A step advances the clock by at most one. -/
theorem clk_of_step {s t : State} (hstep : step s = .next t) : t.clk ≤ s.clk + 1 := by
  cases stepOutcome hstep with
  | completed _ hh _ _ h => rw [State.tick_clk, (h.counters hh).2.1]
  | _ => exact Nat.le_succ _

/-- Without an occupant of Writeback a step commits nothing. -/
theorem nothing_commits {s t : State} (hact : s.lW.active = none) (hstep : step s = .next t) :
    t.icount = s.icount ∧ t.x = s.x := by
  cases stepOutcome hstep with
  | halted _ h => cases hact.symm.trans h
  | @completed s1 s2 s3 s4 s5 _ hh _ _ h =>
    obtain ⟨-, -, hcount⟩ := h.counters hh
    obtain ⟨-, -, -, -, hx⟩ := h.kept
    obtain rfl : s = s1 := Host.Outcome.next.inj ((writebackStage_of_inactive hact).symm.trans h.writeback)
    exact ⟨by simpa [hact] using hcount, hx⟩
  | _ => exact ⟨rfl, rfl⟩

/-- Settles O53: before its fifth pass the clock is too low for an occupant of Writeback. -/
theorem nothingCommitsBeforePassFive : Obligations.NothingCommitsBeforePassFive := by
  intro s t k hs hk hrun
  have hearly := run_induction (P := fun j t => t.clk ≤ j + 1 ∧ (j ≤ 4 → t.icount = 0 ∧ t.x = s.x))
    ⟨hs.clock.le, fun _ => ⟨hs.count, rfl⟩⟩ (fun j u v hu ⟨hclk, hnone⟩ hstep => ?_) hrun
  · exact hearly.2 hk
  · refine ⟨(clk_of_step hstep).trans (Nat.succ_le_succ hclk), fun hj => ?_⟩
    have hact : u.lW.active = none := by
      by_contra hact
      have := (filling_of_run hs hu).writeback (Option.isSome_iff_ne_none.2 hact)
      omega
    obtain ⟨hcount, hx⟩ := nothing_commits hact hstep
    obtain ⟨hcount', hx'⟩ := hnone (by omega)
    exact ⟨hcount.trans hcount', hx.trans hx'⟩

/-! ### The invariants of the spec along a run -/

/-- A flag writer that executes in a completed pass leaves a condition code set (`10_state.md` R28). -/
theorem flag_of_executing {s t : State} {i : Instr} (hstep : step s = .next t) (hr : t.runState = .running)
    (hi : s.executing = some i) (hw : isFlagWriter i = true) : ¬ (t.z = false ∧ t.n = false ∧ t.p = false) := by
  obtain ⟨-, -, s1, s2, s3, s4, s5, h, rfl⟩ := completed_of_running hstep hr
  obtain ⟨hz, hn, hp, -⟩ := h.after_execute
  rw [State.tick_z, State.tick_n, State.tick_p, hz, hn, hp]
  have hact : s2.executing = some i := h.execute_reads.1.trans hi
  obtain ⟨hact', -⟩ | ⟨hact', -⟩ | ⟨j, -, hact', -, rfl⟩ := executeStage_next h.execute
  · cases hact.symm.trans hact'
  · obtain rfl := Option.some.inj (hact.symm.trans hact')
    cases hw
  · obtain rfl := Option.some.inj (hact.symm.trans hact')
    obtain ⟨r, hr⟩ := Option.isSome_iff_exists.1 ((aluResult_isSome i s2.lE).trans hw)
    simp only [State.executed_of_aluResult hr, State.during_z, State.during_n, State.during_p]
    obtain ⟨hz, -, -⟩ | ⟨-, hn, -⟩ | ⟨-, -, hp⟩ := one_flag_of_value r
    · simp [hz]
    · simp [hn]
    · simp [hp]

/-- A step that leaves no condition code set began with none set. -/
theorem noFlag_of_step {s t : State} (hstep : step s = .next t) (h : t.z = false ∧ t.n = false ∧ t.p = false) :
    s.z = false ∧ s.n = false ∧ s.p = false := by
  obtain ⟨hz, hn, hp⟩ | ⟨i, -, -, -, -, -, hodd, -⟩ := onlyFlagWritersInExecuteChangeTheCodes s t hstep
  · rwa [← hz, ← hn, ← hp]
  · rw [h.1, h.2.1, h.2.2] at hodd
    cases hodd

/-- No condition code set at the end of a run: no completed pass of it had a flag writer in Execute
(`70_reset_and_hazards.md` R153 item 7). -/
theorem no_flagWriter_of_run {s t : State} {k : Nat} (hrun : Host.Core.run Sys2Proof.core k s = .next t)
    (h : t.z = false ∧ t.n = false ∧ t.p = false) :
    ∀ (j : Nat) (u v : State) (i : Instr), j < k → Host.Core.run Sys2Proof.core j s = .next u → step u = .next v →
      v.runState = .running → u.executing = some i → isFlagWriter i = false := by
  induction k generalizing t with
  | zero => exact fun j _ _ _ hj => absurd hj (Nat.not_lt_zero j)
  | succ k ih =>
    intro j u v i hj hu hstep hr hi
    obtain ⟨t', ht', hstep'⟩ := run_succ.1 hrun
    obtain hj | rfl := Nat.lt_succ_iff_lt_or_eq.1 hj
    · exact ih ht' (noFlag_of_step hstep' h) j u v i hj hu hstep hr hi
    · obtain rfl : u = t' := Host.Outcome.next.inj (hu.symm.trans ht')
      obtain rfl : v = t := Host.Outcome.next.inj (hstep.symm.trans hstep')
      rw [← Bool.not_eq_true]
      exact fun hw => flag_of_executing hstep hr hi hw h

/-- The latches in the spec's own words (`70_reset_and_hazards.md` R153 items 3, 4, 5, 8, 9). -/
theorem State.Control.latch_rules {s : State} (h : s.Control) :
    (s.lE.stalled = false ∧ s.lM.stalled = false ∧ s.lW.stalled = false ∧ s.lW.interrupted = false) ∧
    (s.lF.empty = false → s.lF.interrupted = false → s.lF.stalled = true ∧ s.lD.stalled = true) ∧
    (s.lF.interrupted = true → s.lF.empty = true) ∧
    (s.lD.stalled = true → s.lD.empty = false ∧ s.lE.empty = true) ∧
    (s.lD.interrupted = true → s.lD.empty = false ∧ s.lD.opcode = .HALT ∧ s.lF.interrupted = true) ∧
    (s.lE.empty = false → s.lE.interrupted = false → s.lF.empty = true) := by
  obtain ⟨shutD, -, -, shutF⟩ := h.isShut_of_interrupted
  have notStalled {l : Latch} (hl : l.IsEmpty ∨ l.IsOccupied ∨ l.IsShut) : l.stalled = false := by
    obtain hl | hl | hl := hl
    · rw [hl]; rfl
    · exact hl.2.1
    · exact hl.2.1
  have hW : s.lW.interrupted = false := by
    obtain hW | hW := h.writebackShape
    · rw [hW]; rfl
    · exact hW.2.2
  refine ⟨⟨notStalled h.executeShape, notStalled h.memoryShape, notStalled (h.writebackShape.imp_right .inl), hW⟩,
    fun he hint => ?_, fun hint => (shutF hint).1, fun hst => ?_, fun hint => ?_, fun he hint => ?_⟩
  · obtain hF | hF | hF := h.fetchShape
    · rw [hF] at he; cases he
    · exact ⟨hF.2.1, (h.heldFetch hF).2.1⟩
    · cases hint.symm.trans hF.2.2
  · obtain hD | hD | hD | hD := h.decodeShape
    · rw [hD] at hst; cases hst
    · cases hst.symm.trans hD.2.1
    · exact ⟨hD.1, by rw [(h.stalledDecode hD).1]; rfl⟩
    · cases hst.symm.trans hD.2.1
  · exact ⟨(shutD hint).1, (shutD hint).2.2.2, h.shutTogether ▸ hint⟩
  · obtain hE | hE | hE := h.executeShape
    · rw [hE] at he; cases he
    · exact h.dispatchFreesFetch hE
    · cases hint.symm.trans hE.2.2.1

/-- Settles O49: a constructed machine starts with the invariant and keeps it; the history of the condition codes is
that of the run. -/
theorem reachableStatesKeepTheSpecsInvariants : Obligations.ReachableStatesKeepTheSpecsInvariants := by
  intro p s t k hs hrun
  have hinv : t.Inv := inv_of_run (invariantAtReset.2.1 p s hs) hrun
  obtain ⟨⟨hE, hM, hW, hWint⟩, hheld, hF, hst, hD, hfree⟩ := hinv.control.latch_rules
  obtain ⟨hzn, hzp, hnp⟩ := hinv.oneFlag
  have hcount := hinv.countBelowClock
  exact ⟨fun r => by rw [hinv.readyTracks r, Bool.not_eq_false', Bool.or_eq_true, Bool.or_eq_true, or_assoc],
    hinv.flagsTrack, hE, hM, hW, hWint, hinv.noSkip, hheld, hF, hst, hD, hinv.shutExecute, hinv.shutMemory, hfree, hzn, hzp, hnp,
    fun hz hn hp => no_flagWriter_of_run hrun ⟨hz, hn, hp⟩, by omega⟩

end Sys2Proof.Machine

/-! PROOFS. One instruction's path through the stages, and the one-at-a-time machine: `40_pipeline_stages.md` R98, R99. -/

namespace Sys2Proof.Machine

/-! ### The net effect, as what the stages compute -/

/-- The latch, about to be executed, holds what the instruction reads in the state `u` of the one-at-a-time machine. -/
structure Latch.Reads (l : Latch) (i : Instr) (u : SeqState) : Prop where
  pc : l.pc = u.pc
  rs1 : ∀ r, rs1Of i = some r → l.rs1Value = u.reg r
  rs2 : ∀ r, rs2Of i = some r → l.rs2Value = u.reg r

/-- The latch Memory hands on, over data memory `m` (`40_pipeline_stages.md` R92). -/
def loadedLatch (i : Instr) (l : Latch) (m : Memory) : Latch :=
  { l with result := if isLoad i then Memory.read m l.memoryAddress.toInt.toNat else l.result }

/-- Data memory after the instruction in the latch has passed Memory (`40_pipeline_stages.md` R92). -/
def storedMemory (i : Instr) (l : Latch) (m : Memory) : Memory :=
  if isStore i then Memory.write m l.memoryAddress.toInt.toNat l.rs1Value else m

/-- What the stages make of the state `u`, for an instruction other than HALT that Execute works on in the latch `l`:
the columns of R98, each by the function of its stage. -/
def SeqState.through (u : SeqState) (i : Instr) (l : Latch) : SeqState :=
  let l' := executedLatch i l u.z u.n u.p
  { u with
    pc := (redirectOf i l u.z u.n u.p).getD (nextPc u.pc)
    x := commitRegs i (loadedLatch i l' u.dmem) u.x
    z := (aluResult i l).elim u.z zeroFlag
    n := (aluResult i l).elim u.n negativeFlag
    p := (aluResult i l).elim u.p positiveFlag
    dmem := storedMemory i l' u.dmem
    count := u.count + 1 }

theorem seqBranch_eq (u : SeqState) (taken : Bool) (imm : Word) :
    seqBranch u taken imm =
      .ok { u with pc := (branchRedirect taken u.pc imm).getD (nextPc u.pc), count := u.count + 1 } := by
  cases taken <;> rfl

/-- The net effect of R99 is what the stages compute (`40_pipeline_stages.md` R98). -/
theorem seqEffect_eq {i : Instr} (hi : i ≠ .halt) {l : Latch} {u : SeqState} (h : l.Reads i u) :
    seqEffect i u =
      if dividesByZero i l then .error .divideByZero
      else if isMemoryOp i && !u.addressOk (executedLatch i l u.z u.n u.p).memoryAddress then
        .error .dataAddressOutOfRange
      else .ok (u.through i l) := by
  obtain ⟨hpc, hrs1, hrs2⟩ := h
  cases i
  case halt => exact absurd rfl hi
  case add | sub | mul | and | or | xor | addl | subl | movc | cmp | cml =>
    simp_all [seqEffect, seqAlu, SeqState.put, SeqState.flags, SeqState.advance, dividesByZero, isMemoryOp, isLoad,
      isStore, SeqState.through, redirectOf, aluResult, executedLatch, commitRegs, loadedLatch, storedMemory, rs1Of,
      rs2Of]
  case div d a b =>
    rw [rs2Of] at hrs2
    by_cases hz : u.reg b = 0#32 <;>
    simp_all [seqEffect, seqAlu, SeqState.put, SeqState.flags, SeqState.advance, dividesByZero, isMemoryOp, isLoad,
      isStore, SeqState.through, redirectOf, aluResult, executedLatch, commitRegs, loadedLatch, storedMemory, rs1Of]
  case jump | jalr | nop =>
    simp_all [seqEffect, SeqState.put, SeqState.goTo, SeqState.advance, dividesByZero, isMemoryOp, isLoad, isStore,
      SeqState.through, redirectOf, aluResult, executedLatch, commitRegs, loadedLatch, storedMemory, rs1Of]
  case bz | bnz | bp | bnp | bn | bnn =>
    simp_all [seqEffect, seqBranch_eq, dividesByZero, isMemoryOp, isStore, SeqState.through, redirectOf, aluResult,
      commitRegs, storedMemory]
  case load | loadp =>
    simp_all [seqEffect, seqLoad, SeqState.put, SeqState.advance, dividesByZero, isMemoryOp, isLoad, isStore,
      SeqState.through, redirectOf, aluResult, executedLatch, commitRegs, loadedLatch, storedMemory, rs1Of]
    grind
  case store | storep =>
    simp_all [seqEffect, seqStore, SeqState.put, SeqState.advance, dividesByZero, isMemoryOp, isLoad, isStore,
      SeqState.through, redirectOf, aluResult, executedLatch, commitRegs, loadedLatch, storedMemory, rs1Of, rs2Of]
    grind

/-! ### An instruction carried through the stages -/

/-- The latch Decode hands on has read its operands (`40_pipeline_stages.md` R82). -/
theorem readOperands_reads {s : State} {i : Instr} {u : SeqState} (hpc : s.lD.pc = u.pc)
    (hx : ∀ r ∈ srcsOf i, s.readReg r = u.reg r) : (s.readOperands i).payload.Reads i u where
  pc := hpc
  rs1 := fun r hr => by
    rw [← hx r (by simp [srcsOf, hr])]
    simp [State.readOperands, hr]
  rs2 := fun r hr => by
    rw [← hx r (by simp [srcsOf, hr])]
    simp [State.readOperands, hr]

/-- The state of the one-at-a-time machine about to carry out the occupant of Decode. -/
def State.atDecode (s : State) : SeqState := { s.seqView with pc := s.lD.pc }

theorem commitRegs_payload (i : Instr) (l : Latch) (x : Vector Word 32) :
    commitRegs i l.payload x = commitRegs i l x := by cases i <;> rfl

/-- The state after the four stage actions of an instruction other than HALT, if none faults: nothing left in flight,
the tracker as it was. -/
def State.carried (s : State) (i : Instr) : State :=
  let l := (s.readOperands i).payload
  let l' := executedLatch i l s.z s.n s.p
  let target := redirectOf i l s.z s.n s.p
  { s with
    pc := target.getD s.pc
    x := commitRegs i (loadedLatch i l' s.dmem) s.x
    z := (aluResult i l).elim s.z zeroFlag
    n := (aluResult i l).elim s.n negativeFlag
    p := (aluResult i l).elim s.p positiveFlag
    icount := s.icount + 1
    fSkip := s.fSkip || target.isSome
    lF := target.elim s.lF fun _ => Latch.bubble
    lD := Latch.bubble, lE := Latch.bubble, lM := Latch.bubble, lW := Latch.bubble
    dmem := storedMemory i l' s.dmem
    phase := .writeback }

theorem carried_iff {i : Instr} {s t : State} : Carried i s t ↔ carry i s = .next t := by
  simp only [carry, andThen_eq_next, Carried]
  constructor
  · rintro ⟨s1, s2, s3, h1, h2, h3, h4⟩
    exact ⟨s1, h1, s2, h2, s3, h3, h4⟩
  · rintro ⟨s1, h1, s2, h2, s3, h3, h4⟩
    exact ⟨s1, s2, s3, h1, h2, h3, h4⟩

/-- With nothing older in flight Decode's test passes. -/
theorem State.Entered.canDispatch {s : State} {i : Instr} (h : s.Entered i) :
    s.executeHolds = false ∧ s.canDispatch i = true := by
  refine ⟨by rw [State.executeHolds, h.executeEmpty]; rfl, ?_⟩
  rw [canDispatch_iff]
  exact ⟨fun r _ => h.allReady r, fun _ => h.flagsValid⟩

/-- The four stage actions one after another, if none faults. -/
def State.afterStages (s : State) (i : Instr) : State :=
  ((((((((s.during .decode).dispatched i).during .execute).executed i).during .memory).accessed i).during
    .writeback).committed i)

/-- The tracker is as before: what the dispatch marked, the commit has released. -/
theorem State.Entered.afterStages_ready {s : State} {i : Instr} (h : s.Entered i) :
    (s.afterStages i).ready = s.ready := by
  have hbit (r : Reg) : (s.afterStages i).isReady r = s.isReady r := by
    rw [State.afterStages, State.committed, State.isReady_retire, h.allReady r]
    by_cases hr : r ∈ destsOf i
    · rw [if_pos hr]
      rfl
    · rw [if_neg hr]
      exact ((State.isReady_dispatched (s.during .decode) i r).trans (if_neg hr)).trans (h.allReady r)
  exact Vector.ext fun k hk => hbit ⟨k, hk⟩

/-- `flags_valid` is as before: what a producer's Execute cleared, its commit has set again. -/
theorem State.Entered.afterStages_flagsValid {s : State} {i : Instr} (h : s.Entered i) :
    (s.afterStages i).flagsValid = s.flagsValid := by
  rw [State.afterStages, State.flagsValid_committed]
  simp only [State.during_flagsValid, State.accessed, State.executed, State.dispatched_flagsValid, h.flagsValid]
  cases isFlagProducer i <;> rfl

theorem State.afterStages_lD (s : State) (i : Instr) : (s.afterStages i).lD = Latch.bubble := by
  have helim (target : Option Word) : (target.elim Latch.bubble fun _ => Latch.bubble) = Latch.bubble := by
    cases target <;> rfl
  exact helim _

theorem State.readOperands_during (s : State) (st : Stage) (i : Instr) :
    (s.during st).readOperands i = s.readOperands i := rfl

theorem State.carried_x (s : State) (i : Instr) : (s.carried i).x = commitRegs i
    (loadedLatch i (executedLatch i (s.readOperands i).payload s.z s.n s.p) s.dmem) s.x := rfl

theorem State.committed_x (s : State) (i : Instr) : (s.committed i).x = commitRegs i s.lW s.x := rfl

theorem State.accessed_lW (s : State) (i : Instr) : (s.accessed i).lW = (loadedLatch i s.lM s.dmem).payload := rfl

theorem State.executed_lM (s : State) (i : Instr) :
    (s.executed i).lM = (executedLatch i s.lE s.z s.n s.p).payload := rfl

theorem loadedLatch_payload (i : Instr) (l : Latch) (m : Memory) :
    loadedLatch i l.payload m = (loadedLatch i l m).payload := rfl

theorem State.Entered.afterStages_eq {s : State} {i : Instr} (h : s.Entered i) : s.afterStages i = s.carried i := by
  have hx : (s.afterStages i).x = (s.carried i).x := by
    rw [State.afterStages, State.committed_x, State.during_lW, State.accessed_lW, commitRegs_payload, State.during_lM,
      State.executed_lM, loadedLatch_payload, commitRegs_payload, State.during_lE, State.dispatched_lE,
      State.readOperands_during, State.carried_x]
    rfl
  calc s.afterStages i
      = { s.carried i with
          x := (s.afterStages i).x, ready := (s.afterStages i).ready
          flagsValid := (s.afterStages i).flagsValid, lD := (s.afterStages i).lD } := by
        unfold State.carried
        rfl
    _ = s.carried i := by
        rw [hx, h.afterStages_ready, h.afterStages_flagsValid, s.afterStages_lD i]
        rfl

/-- What carrying an instruction other than HALT through comes to. -/
theorem State.Entered.carry_eq {s : State} {i : Instr} (h : s.Entered i) (hi : i ≠ .halt) :
    carry i s =
      if dividesByZero i (s.readOperands i).payload then .fault .divideByZero
      else if isMemoryOp i && !s.dataAddressOk
          (executedLatch i (s.readOperands i).payload s.z s.n s.p).memoryAddress then .fault .dataAddressOutOfRange
      else .next (s.carried i) := by
  obtain ⟨hE, hc⟩ := h.canDispatch
  have hdiv : dividesByZero i (((s.during .decode).dispatched i).during .execute).lE =
      dividesByZero i (s.readOperands i).payload := rfl
  have hmiss : (((((s.during .decode).dispatched i).during .execute).executed i).during .memory).misses i =
      (isMemoryOp i && !s.dataAddressOk
        (executedLatch i (s.readOperands i).payload s.z s.n s.p).memoryAddress) := rfl
  rw [carry, exec_decode_dispatch hi (s := s.during .decode) rfl hE hc, andThen_next, exec_execute_eq hi rfl, hdiv]
  split
  · rfl
  rw [andThen_next, exec_memory_eq hi rfl, hmiss]
  split
  · rfl
  rw [← h.afterStages_eq]
  exact exec_writeback_eq hi rfl

/-- What an instruction carried through leaves besides the machine of R99. -/
theorem carried_settled (s : State) (i : Instr) : SettledAfter s (s.carried i) :=
  ⟨rfl, rfl, rfl, rfl, rfl, rfl, rfl, rfl, rfl, rfl, rfl⟩

/-- The machine of R99 in what an instruction carried through leaves: the net effect, as the stages compute it. -/
theorem State.Entered.carried_seqView {s : State} {i : Instr} (h : s.Entered i) :
    (s.carried i).seqView = s.atDecode.through i (s.readOperands i).payload := by
  have hpc : (s.carried i).pc =
      (redirectOf i (s.readOperands i).payload s.z s.n s.p).getD (nextPc s.lD.pc) := h.pcAfter ▸ rfl
  calc (s.carried i).seqView = { s.atDecode.through i (s.readOperands i).payload with pc := (s.carried i).pc } := rfl
    _ = s.atDecode.through i (s.readOperands i).payload := by
      rw [hpc]
      rfl

/-- An instruction other than HALT, carried through, has its net effect, or raises its fault
(`40_pipeline_stages.md` R98, R99). -/
theorem State.Entered.carry_seqEffect {s : State} {i : Instr} (h : s.Entered i) (hi : i ≠ .halt) :
    (∃ c, seqEffect i s.atDecode = .error c ∧ carry i s = .fault c) ∨
    (seqEffect i s.atDecode = .ok (s.carried i).seqView ∧ Carried i s (s.carried i)) := by
  have heffect := seqEffect_eq hi (u := s.atDecode) (readOperands_reads rfl fun _ _ => rfl)
  rw [carried_iff, h.carry_eq hi, h.carried_seqView]
  by_cases hdiv : dividesByZero i (s.readOperands i).payload = true
  · rw [if_pos hdiv] at heffect
    exact .inl ⟨_, heffect, if_pos hdiv⟩
  rw [if_neg hdiv] at heffect ⊢
  by_cases hmiss : (isMemoryOp i && !s.dataAddressOk
      (executedLatch i (s.readOperands i).payload s.z s.n s.p).memoryAddress) = true
  · exact .inl ⟨_, heffect.trans (if_pos hmiss), if_pos hmiss⟩
  · exact .inr ⟨heffect.trans (if_neg hmiss), if_neg hmiss⟩

end Sys2Proof.Machine

/-! PROOFS. The net effect of every instruction, with its frame: `41_arithmetic.md` to `45_compare.md`. -/

namespace Sys2Proof.Machine

/-! ### What an instruction carried through leaves -/

/-- Neither fault: the instruction goes through all four stages. -/
theorem State.Entered.carried {s : State} {i : Instr} (h : s.Entered i) (hi : i ≠ .halt)
    (hdiv : dividesByZero i (s.readOperands i).payload = false)
    (haddr : isMemoryOp i = true →
      s.dataAddressOk (executedLatch i (s.readOperands i).payload s.z s.n s.p).memoryAddress = true) :
    Carried i s (s.carried i) := by
  rw [carried_iff, h.carry_eq hi, if_neg (by simp [hdiv]), if_neg]
  cases hm : isMemoryOp i <;> simp [haddr, hm]

/-- Outside its destinations the register file is as before. -/
theorem regsKept_carried (s : State) (i : Instr) : RegsKept s (s.carried i) (destsOf i) := fun _ hr =>
  commitRegs_of_not_mem hr _ _

theorem isStore_of_not_isMemoryOp {i : Instr} (h : isMemoryOp i = false) : isStore i = false :=
  Bool.eq_false_iff.2 fun hs => Bool.eq_false_iff.1 h (isMemoryOp_of_isStore hs)

/-- Only a store changes data memory. -/
theorem memoryKept_carried {s : State} {i : Instr} (h : isStore i = false) : MemoryKept s (s.carried i) := fun _ => by
  simp [State.carried, storedMemory, h]

/-- Only a flag writer changes the condition codes. -/
theorem codesKept_carried {s : State} {i : Instr} (h : aluResult i (s.readOperands i).payload = none) :
    CodesKept s (s.carried i) := by
  simp [CodesKept, State.carried, h]

/-- The condition codes of a flag writer are those of its result (`10_state.md` R28). -/
theorem codesOf_carried {s : State} {i : Instr} {v : Word}
    (h : aluResult i (s.readOperands i).payload = some v) : CodesOf (s.carried i) v := by
  simp [CodesOf, State.carried, h, zeroFlag_eq, negativeFlag_eq, positiveFlag_eq]

/-- Without a redirect `PC` and Fetch are as before. -/
theorem fetchKept_carried {s : State} {i : Instr}
    (h : redirectOf i (s.readOperands i).payload s.z s.n s.p = none) :
    (s.carried i).pc = s.pc ∧ FetchKept s (s.carried i) := by
  simp [FetchKept, State.carried, h]

/-- A redirect sets `PC`, empties Fetch's latch and holds Fetch (`40_pipeline_stages.md` R89). -/
theorem fetchFlushed_carried {s : State} {i : Instr} {target : Word}
    (h : redirectOf i (s.readOperands i).payload s.z s.n s.p = some target) :
    (s.carried i).pc = target ∧ FetchFlushed (s.carried i) := by
  simp [FetchFlushed, State.carried, h]

theorem redirectOf_of_aluResult {i : Instr} {l : Latch} {v : Word} (h : aluResult i l = some v) (z n p : Bool) :
    redirectOf i l z n p = none := by
  revert h
  cases i <;> simp [aluResult, redirectOf]

theorem isMemoryOp_of_aluResult {i : Instr} {l : Latch} {v : Word} (h : aluResult i l = some v) :
    isMemoryOp i = false := by
  revert h
  cases i <;> simp [aluResult, isMemoryOp]

/-! ### Flag writers -/

/-- A flag writer with result `v`, carried through: the condition codes of `v`, and the frame. -/
theorem State.Entered.carried_of_aluResult {s : State} {i : Instr} {v : Word} (h : s.Entered i)
    (hdiv : dividesByZero i (s.readOperands i).payload = false)
    (hv : aluResult i (s.readOperands i).payload = some v) :
    Carried i s (s.carried i) ∧ CodesOf (s.carried i) v ∧ RegsKept s (s.carried i) (destsOf i) ∧
      MemoryKept s (s.carried i) ∧ (s.carried i).pc = s.pc ∧ FetchKept s (s.carried i) ∧
      SettledAfter s (s.carried i) := by
  have hi : i ≠ .halt := by
    rintro rfl
    cases hv
  have hm := isMemoryOp_of_aluResult hv
  obtain ⟨hpc, hfetch⟩ := fetchKept_carried (redirectOf_of_aluResult hv s.z s.n s.p)
  exact ⟨h.carried hi hdiv (by simp [hm]), codesOf_carried hv, regsKept_carried s i,
    memoryKept_carried (isStore_of_not_isMemoryOp hm), hpc, hfetch, carried_settled s i⟩

/-- The result of a flag writer with a destination is in it. -/
theorem readReg_carried_of_aluResult {s : State} {i : Instr} {d : Reg} {v : Word} (hd : destsOf i = [d])
    (hv : aluResult i (s.readOperands i).payload = some v) : (s.carried i).readReg d = v := by
  cases i <;> cases hd <;> cases hv <;>
    simp [State.carried, State.readReg, commitRegs, loadedLatch, executedLatch, isLoad, isMemoryOp, aluResult]

/-- The two together, for an instruction with one destination. -/
theorem State.Entered.carried_result {s : State} {i : Instr} {d : Reg} {v : Word} (h : s.Entered i)
    (hd : destsOf i = [d]) (hdiv : dividesByZero i (s.readOperands i).payload = false)
    (hv : aluResult i (s.readOperands i).payload = some v) :
    ∃ t, Carried i s t ∧ t.readReg d = v ∧ CodesOf t v ∧ RegsKept s t [d] ∧ MemoryKept s t ∧ t.pc = s.pc ∧
      FetchKept s t ∧ SettledAfter s t := by
  obtain ⟨hc, hcodes, hregs, hframe⟩ := h.carried_of_aluResult hdiv hv
  exact ⟨_, hc, readReg_carried_of_aluResult hd hv, hcodes, hd ▸ hregs, hframe⟩

/-- Settles O30: four flag writers with a destination; only DIV has a fault to exclude. -/
theorem netEffectOfAddSubMulDiv : Obligations.NetEffectOfAddSubMulDiv := by
  intro d a b s
  refine ⟨fun h => h.carried_result rfl rfl rfl, fun h => h.carried_result rfl rfl rfl,
    fun h => h.carried_result rfl rfl rfl, fun hv h => h.carried_result rfl ?_ rfl, fun hv h => ?_⟩
  · have : s.readReg b ≠ 0#32 := fun h0 => hv (by simp [h0])
    exact beq_eq_false_iff_ne.2 this
  · have : s.readReg b = 0#32 := BitVec.eq_of_toInt_eq hv
    rw [h.carry_eq (by simp)]
    exact if_pos (beq_iff_eq.2 this)

/-- Settles O31: three flag writers with a destination and no fault. -/
theorem netEffectOfAndOrXor : Obligations.NetEffectOfAndOrXor := fun _ _ _ _ =>
  ⟨fun h => h.carried_result rfl rfl rfl, fun h => h.carried_result rfl rfl rfl,
    fun h => h.carried_result rfl rfl rfl⟩

/-- Settles O32: as for O31, the immediate in the place of a source. -/
theorem netEffectOfMovcAddlSubl : Obligations.NetEffectOfMovcAddlSubl := fun _ _ _ _ =>
  ⟨fun h => h.carried_result rfl rfl rfl, fun h => h.carried_result rfl rfl rfl,
    fun h => h.carried_result rfl rfl rfl⟩

/-- Settles O33: the comparisons are flag writers without a destination. -/
theorem netEffectOfCmpCml : Obligations.NetEffectOfCmpCml := fun _ _ _ _ =>
  ⟨fun h => ⟨_, h.carried_of_aluResult rfl rfl⟩, fun h => ⟨_, h.carried_of_aluResult rfl rfl⟩⟩

/-! ### Loads and stores -/

/-- A load or store at an address inside data memory, carried through: what it leaves besides registers and memory. -/
theorem State.Entered.carried_access {s : State} {i : Instr} (h : s.Entered i) (hm : isMemoryOp i = true)
    (haddr : s.dataAddressOk (executedLatch i (s.readOperands i).payload s.z s.n s.p).memoryAddress = true) :
    Carried i s (s.carried i) ∧ RegsKept s (s.carried i) (destsOf i) ∧ CodesKept s (s.carried i) ∧
      (s.carried i).pc = s.pc ∧ FetchKept s (s.carried i) ∧ SettledAfter s (s.carried i) := by
  have hi : i ≠ .halt := by
    rintro rfl
    cases hm
  have hdiv : dividesByZero i (s.readOperands i).payload = false := by
    revert hm
    cases i <;> simp [isMemoryOp, dividesByZero]
  have hv : aluResult i (s.readOperands i).payload = none := by
    revert hm
    cases i <;> simp [isMemoryOp, aluResult]
  have ht : redirectOf i (s.readOperands i).payload s.z s.n s.p = none := by
    revert hm
    cases i <;> simp [isMemoryOp, redirectOf]
  obtain ⟨hpc, hfetch⟩ := fetchKept_carried ht
  exact ⟨h.carried hi hdiv fun _ => haddr, regsKept_carried s i, codesKept_carried hv, hpc, hfetch,
    carried_settled s i⟩

/-- A load or store at an address outside data memory faults (`20_memory.md` R43). -/
theorem State.Entered.carry_miss {s : State} {i : Instr} (h : s.Entered i) (hm : isMemoryOp i = true)
    (haddr : s.dataAddressOk (executedLatch i (s.readOperands i).payload s.z s.n s.p).memoryAddress = false) :
    carry i s = .fault .dataAddressOutOfRange := by
  have hi : i ≠ .halt := by
    rintro rfl
    cases hm
  have hdiv : dividesByZero i (s.readOperands i).payload = false := by
    revert hm
    cases i <;> simp [isMemoryOp, dividesByZero]
  rw [h.carry_eq hi, if_neg (by simp [hdiv]), if_pos (by simp [hm, haddr])]

/-- Settles O34: with `rd = rs1` the second of LOADP's two writes, that of the loaded word, wins. -/
theorem netEffectOfLoadLoadp : Obligations.NetEffectOfLoadLoadp := by
  intro d a imm s
  refine ⟨fun hin => ⟨fun h => ?_, fun h => ?_⟩, fun hout => ⟨fun h => ?_, fun h => ?_⟩⟩
  · obtain ⟨hc, hregs, hcodes, hframe⟩ := h.carried_access rfl ((s.dataAddressOk_iff _).2 hin)
    exact ⟨_, hc, Vector.getElem_set_self _, hregs, hcodes, memoryKept_carried rfl, hframe⟩
  · obtain ⟨hc, hregs, hcodes, hframe⟩ := h.carried_access rfl ((s.dataAddressOk_iff _).2 hin)
    refine ⟨_, hc, Vector.getElem_set_self _, fun hne => ?_, hregs, hcodes, memoryKept_carried rfl, hframe⟩
    have hval : d.val ≠ a.val := fun hval => hne (Fin.ext hval.symm)
    exact (Vector.getElem_set_ne d.isLt _ hval).trans (Vector.getElem_set_self _)
  · exact h.carry_miss rfl (Bool.eq_false_iff.2 (mt (s.dataAddressOk_iff _).1 hout))
  · exact h.carry_miss rfl (Bool.eq_false_iff.2 (mt (s.dataAddressOk_iff _).1 hout))

/-- Settles O35: the write of memory is read back, and leaves the other words alone. -/
theorem netEffectOfStoreStorep : Obligations.NetEffectOfStoreStorep := by
  intro a b imm s hwf
  refine ⟨rfl, fun hin => ⟨fun h => ?_, fun h => ?_⟩, fun hout => ⟨fun h => ?_, fun h => ?_⟩⟩
  · obtain ⟨hc, hframe⟩ := h.carried_access rfl ((s.dataAddressOk_iff _).2 hin)
    exact ⟨_, hc, ⟨Memory.read_write_self hwf _ _, fun k hk => Memory.read_write_of_ne _ _ hk⟩, hframe⟩
  · obtain ⟨hc, hregs, hframe⟩ := h.carried_access rfl ((s.dataAddressOk_iff _).2 hin)
    exact ⟨_, hc, ⟨Memory.read_write_self hwf _ _, fun k hk => Memory.read_write_of_ne _ _ hk⟩,
      Vector.getElem_set_self _, hregs, hframe⟩
  · exact h.carry_miss rfl (Bool.eq_false_iff.2 (mt (s.dataAddressOk_iff _).1 hout))
  · exact h.carry_miss rfl (Bool.eq_false_iff.2 (mt (s.dataAddressOk_iff _).1 hout))

/-! ### Jumps and branches -/

/-- A jump target is a multiple of the instruction width (`44_control.md` R120). -/
theorem four_dvd_of_cleared (w : Word) : (4 : Int) ∣ (w &&& 0xFFFFFFFC#32).toInt := by
  have hmod : (w &&& 0xFFFFFFFC#32).toNat % 4 = 0 := by
    rw [BitVec.toNat_and, show (4 : Nat) = 2 ^ 2 from rfl, Nat.and_mod_two_pow]
    simp
  rw [BitVec.toInt_eq_toNat_cond]
  split <;> omega

/-- Settles O36: both redirect, with the same target. -/
theorem netEffectOfJumpJalr : Obligations.NetEffectOfJumpJalr := by
  intro d a imm s
  refine ⟨four_dvd_of_cleared _, fun h => ?_, fun h => ?_⟩
  · obtain ⟨hpc, hflush⟩ := fetchFlushed_carried (s := s) (i := .jump a imm) rfl
    exact ⟨_, h.carried (by simp) rfl (by simp [isMemoryOp]), hpc, regsKept_carried s _, codesKept_carried rfl,
      memoryKept_carried rfl, hflush, carried_settled s _⟩
  · obtain ⟨hpc, hflush⟩ := fetchFlushed_carried (s := s) (i := .jalr d a imm) rfl
    exact ⟨_, h.carried (by simp) rfl (by simp [isMemoryOp]), hpc, Vector.getElem_set_self _, regsKept_carried s _,
      codesKept_carried rfl, memoryKept_carried rfl, hflush, carried_settled s _⟩

/-- A branch with test `test`, carried through. -/
theorem State.Entered.carried_branch {s : State} {i : Instr} {imm : Word} {test : Bool} (h : s.Entered i)
    (hb : isConditionalBranch i = true)
    (ht : redirectOf i (s.readOperands i).payload s.z s.n s.p = branchRedirect test s.lD.pc imm) :
    ∃ t, Carried i s t ∧ (test = true → t.pc = wrap32 (s.lD.pc.toInt + imm.toInt) ∧ FetchFlushed t) ∧
      (test = false → t.pc = s.pc ∧ FetchKept s t) ∧
      RegsKept s t [] ∧ CodesKept s t ∧ MemoryKept s t ∧ SettledAfter s t := by
  obtain ⟨hi, hm, hdests, hv, hdiv⟩ : i ≠ .halt ∧ isMemoryOp i = false ∧ destsOf i = [] ∧
      aluResult i (s.readOperands i).payload = none ∧ dividesByZero i (s.readOperands i).payload = false := by
    revert hb
    cases i <;> simp [isConditionalBranch, isMemoryOp, destsOf, aluResult, dividesByZero]
  refine ⟨_, h.carried hi hdiv (by simp [hm]), ?_, ?_, hdests ▸ regsKept_carried s i, codesKept_carried hv,
    memoryKept_carried (isStore_of_not_isMemoryOp hm), carried_settled s i⟩
  · rintro rfl
    exact fetchFlushed_carried ht
  · rintro rfl
    exact fetchKept_carried ht

/-- Settles O37: the six differ in their test alone. -/
theorem netEffectOfBranches : Obligations.NetEffectOfBranches := fun _ _ =>
  ⟨fun h => h.carried_branch rfl rfl, fun h => h.carried_branch rfl rfl, fun h => h.carried_branch rfl rfl,
    fun h => h.carried_branch rfl rfl, fun h => h.carried_branch rfl rfl, fun h => h.carried_branch rfl rfl⟩

/-! ### HALT and NOP -/

/-- The state after the four stage actions of HALT (`40_pipeline_stages.md` R97). -/
def State.carriedHalt (s : State) : State :=
  let l := (s.readOperands .halt).payload
  { s with
    lF := { s.lF with interrupted := true }, lD := { l with interrupted := true }
    lE := { l with interrupted := true }, lM := { l with interrupted := true }, lW := Latch.bubble
    icount := s.icount + 1, runState := .halted, phase := .writeback }

/-- HALT has no source, no destination and no fault: it goes through all four stages. -/
theorem State.Entered.carriedHalt {s : State} (h : s.Entered .halt) : Carried .halt s s.carriedHalt := by
  have hlatch : { s.readOperands .halt with stalled := false, interrupted := true } =
      { (s.readOperands .halt).payload with interrupted := true } := by
    simp only [State.readOperands, Latch.payload, h.occupied.1]
  have h1 : exec .halt (s.during .decode) = .next { s with
      lF := { s.lF with interrupted := true }, lD := { (s.readOperands .halt).payload with interrupted := true }
      lE := (s.readOperands .halt).payload, phase := .decode } := by
    rw [← hlatch]
    exact exec_decode_dispatchHalt rfl h.canDispatch.1
  exact ⟨_, _, _, h1, exec_execute_halt rfl, exec_memory_halt rfl, exec_writeback_halt_eq rfl⟩

/-- Settles O38: NOP goes the general way; HALT leaves its shut-down copies behind. -/
theorem netEffectOfHaltNop : Obligations.NetEffectOfHaltNop := by
  refine fun s => ⟨fun h => ?_, fun h => ?_⟩
  · obtain ⟨hpc, hfetch⟩ := fetchKept_carried (s := s) (i := .nop) rfl
    exact ⟨_, h.carried (by simp) rfl (by simp [isMemoryOp]), regsKept_carried s _, codesKept_carried rfl,
      memoryKept_carried rfl, hpc, hfetch, carried_settled s _⟩
  · have hop : s.lD.opcode = .HALT := instr_eq_halt.1 h.holds
    have hshut : ({ (s.readOperands .halt).payload with interrupted := true } : Latch).IsShut := ⟨rfl, rfl, rfl, hop⟩
    exact ⟨_, h.carriedHalt, rfl, rfl, fun _ _ => rfl, ⟨rfl, rfl, rfl⟩, fun _ => rfl, rfl, rfl, rfl, rfl, rfl, rfl,
      rfl, rfl, hshut, hshut, hshut, rfl⟩

/-! ### One step of the one-at-a-time machine -/

/-- Settles O39: HALT by its four actions, every other instruction by its net effect. -/
theorem stagesComposeToTheNetEffect : Obligations.StagesComposeToTheNetEffect := by
  intro i s h
  by_cases hi : i = .halt
  · subst hi
    exact ⟨_, h.carriedHalt, rfl, fun hne => absurd rfl hne, fun _ => ⟨rfl, rfl⟩⟩
  obtain ⟨c, heffect, hcarry⟩ | ⟨heffect, hcarried⟩ := h.carry_seqEffect hi
  · change match seqEffect i s.atDecode with | .ok u => _ | .error c => _
    rw [heffect]
    exact hcarry
  · change match seqEffect i s.atDecode with | .ok u => _ | .error c => _
    rw [heffect]
    exact ⟨_, hcarried, rfl, fun _ => rfl, fun heq => absurd heq hi⟩

/-! ### Facts about the arithmetic -/

theorem addWords_eq (a b : Word) : addWords a b = a + b := by
  simp [addWords, wrap32, BitVec.ofInt_add]

theorem subWords_eq (a b : Word) : subWords a b = a - b := by
  rw [subWords, wrap32, Int.sub_eq_add_neg, BitVec.ofInt_add, BitVec.ofInt_neg, BitVec.ofInt_toInt,
    BitVec.ofInt_toInt, BitVec.sub_eq_add_neg]

theorem mulWords_eq (a b : Word) : mulWords a b = a * b := by
  simp [mulWords, wrap32, BitVec.ofInt_mul]

/-- The laws of the operators. -/
theorem word_laws (a b : Word) : addWords a b = addWords b a ∧ mulWords a b = mulWords b a ∧ a &&& b = b &&& a ∧
    a ||| b = b ||| a ∧ a ^^^ b = b ^^^ a ∧ subWords a b = addWords a (wrap32 (-b.toInt)) ∧
    subWords (addWords a b) b = a ∧ a ^^^ a = 0#32 ∧ a &&& a = a ∧ a ||| a = a := by
  have hneg : wrap32 (-b.toInt) = -b := by rw [wrap32, BitVec.ofInt_neg, BitVec.ofInt_toInt]
  simp only [addWords_eq, subWords_eq, mulWords_eq, hneg]
  exact ⟨BitVec.add_comm a b, BitVec.mul_comm a b, BitVec.and_comm a b, BitVec.or_comm a b, BitVec.xor_comm a b,
    BitVec.sub_eq_add_neg a b, BitVec.add_sub_cancel a b, BitVec.xor_self, BitVec.and_self, BitVec.or_self⟩

/-- The quotient is representable but for `-2147483648 / -1` (`41_arithmetic.md` R104). -/
theorem divWords_toInt {a b : Word} (hb : b ≠ 0#32) (h : ¬ (a.toInt = -2147483648 ∧ b.toInt = -1)) :
    (divWords a b).toInt = a.toInt.tdiv b.toInt := by
  have hb0 : b.toInt ≠ 0 := fun h0 => hb (BitVec.eq_of_toInt_eq h0)
  have hle := a.le_toInt
  have hlt := a.toInt_lt
  have hid := Int.tdiv_mul_add_tmod a.toInt b.toInt
  have hrem : (a.toInt.tmod b.toInt).natAbs < b.toInt.natAbs := by
    rw [Int.natAbs_tmod]
    exact Nat.mod_lt _ (Int.natAbs_pos.2 hb0)
  have hquot : (a.toInt.tdiv b.toInt).natAbs ≤ a.toInt.natAbs := by
    rw [Int.natAbs_tdiv]
    exact Nat.div_le_self _ _
  have hne : a.toInt.tdiv b.toInt ≠ 2147483648 := fun hq => by
    rw [hq] at hid
    omega
  exact BitVec.toInt_ofInt_eq_self (by omega) (by omega) (by omega)

/-- The division identity (`41_arithmetic.md` R108). -/
theorem division_identity {a b : Word} (hb : b ≠ 0#32) (h : ¬ (a.toInt = -2147483648 ∧ b.toInt = -1)) :
    ∃ rem : Int, a.toInt = (divWords a b).toInt * b.toInt + rem ∧ rem.natAbs < b.toInt.natAbs ∧
      (rem = 0 ∨ rem.sign = a.toInt.sign) := by
  have hb0 : b.toInt ≠ 0 := fun h0 => hb (BitVec.eq_of_toInt_eq h0)
  refine ⟨a.toInt.tmod b.toInt, ?_, ?_, ?_⟩
  · rw [divWords_toInt hb h, Int.tdiv_mul_add_tmod]
  · rw [Int.natAbs_tmod]
    exact Nat.mod_lt _ (Int.natAbs_pos.2 hb0)
  · by_cases hd : b.toInt ∣ a.toInt
    · exact .inl (Int.tmod_eq_zero_of_dvd hd)
    · exact .inr ((Int.sign_tmod _ _).trans (if_neg hd))

/-- A flag writer with a destination that has gone through the stages, whatever else is in flight: its result is in
the destination, and the condition codes are those of the result. -/
theorem Carried.codes {i : Instr} {s t : State} {d : Reg} (hw : isFlagWriter i = true) (hd : destsOf i = [d])
    (h : Carried i s t) :
    t.z = zeroFlag (t.readReg d) ∧ t.n = negativeFlag (t.readReg d) ∧ t.p = positiveFlag (t.readReg d) := by
  obtain ⟨s1, s2, s3, -, hE, hM, hW⟩ := h
  have hi : i ≠ .halt := by
    rintro rfl
    cases hd
  have hst : ∀ (a b : Reg) (imm : Word), i ≠ .storep a b imm := by
    rintro a b imm rfl
    cases hw
  obtain ⟨v, hv⟩ := Option.isSome_iff_exists.1 ((aluResult_isSome i (s1.during .execute).lE).trans hw)
  have hm := isMemoryOp_of_aluResult hv
  have h2 : s2 = (s1.during .execute).executed i := by
    rw [exec_execute_eq hi rfl] at hE
    split at hE
    · cases hE
    · exact (Host.Outcome.next.inj hE).symm
  have h3 : s3 = (s2.during .memory).accessed i := by
    rw [exec_memory_eq hi rfl, State.misses, hm] at hM
    exact (Host.Outcome.next.inj hM).symm
  have ht : t = (s3.during .writeback).committed i := by
    rw [exec_writeback_eq hi rfl] at hW
    exact (Host.Outcome.next.inj hW).symm
  have hx : t.readReg d = v := by
    rw [ht, State.committed, State.readReg, State.retire_x, commitRegs_of_dest hd hst, h3, h2,
      State.executed_of_aluResult hv]
    simp [State.accessed, State.memoryResult, isLoad, hm]
  rw [hx, ht, h3, h2, State.executed_of_aluResult hv]
  exact ⟨rfl, rfl, rfl⟩

/-- The end state of an instruction carried through with nothing older in flight. -/
theorem State.Entered.eq_carried {s t : State} {i : Instr} (h : s.Entered i) (hi : i ≠ .halt) (hc : Carried i s t) :
    t = s.carried i := by
  rw [carried_iff, h.carry_eq hi] at hc
  split at hc
  · cases hc
  split at hc
  · cases hc
  exact (Host.Outcome.next.inj hc).symm

/-- What a flag writer with result `v` leaves in the register file and the condition codes. -/
theorem State.Entered.end_of_aluResult {s t : State} {i : Instr} {d : Reg} {v : Word} (h : s.Entered i)
    (hd : destsOf i = [d]) (hv : aluResult i (s.readOperands i).payload = some v) (hc : Carried i s t) :
    t.x = s.x.set d.val v ∧ t.z = zeroFlag v ∧ t.n = negativeFlag v ∧ t.p = positiveFlag v := by
  have hi : i ≠ .halt := by
    rintro rfl
    cases hd
  rw [h.eq_carried hi hc]
  refine ⟨?_, by simp [State.carried, hv], by simp [State.carried, hv], by simp [State.carried, hv]⟩
  cases i <;> cases hd <;> cases hv <;> rfl

/-- The five instructions of `41_arithmetic.md` R108 that commute: swapped sources give the same result. -/
theorem aluResult_swap {op : Reg → Reg → Reg → Instr}
    (hop : op = .add ∨ op = .mul ∨ op = .and ∨ op = .or ∨ op = .xor) (d a b : Reg) {s s' : State} (hx : s'.x = s.x) :
    destsOf (op d a b) = [d] ∧ destsOf (op d b a) = [d] ∧
      ∃ v, aluResult (op d a b) (s.readOperands (op d a b)).payload = some v ∧
        aluResult (op d b a) (s'.readOperands (op d b a)).payload = some v := by
  have hreg (r : Reg) : s'.readReg r = s.readReg r := by simp only [State.readReg, hx]
  obtain ⟨hadd, hmul, hand, hor, hxor, -⟩ := word_laws (s.readReg b) (s.readReg a)
  obtain rfl | rfl | rfl | rfl | rfl := hop <;>
    refine ⟨rfl, rfl, _, rfl, ?_⟩ <;>
    simp [aluResult, State.readOperands, rs1Of, rs2Of, hreg, hadd, hmul, hand, hor, hxor]

/-- Swapped sources give the same registers and condition codes. -/
theorem swapped_sources {op : Reg → Reg → Reg → Instr}
    (hop : op = .add ∨ op = .mul ∨ op = .and ∨ op = .or ∨ op = .xor) {d a b : Reg} {s s' t t' : State}
    (h : s.Entered (op d a b)) (h' : s'.Entered (op d b a)) (hx : s'.x = s.x) (hc : Carried (op d a b) s t)
    (hc' : Carried (op d b a) s' t') : t'.x = t.x ∧ t'.z = t.z ∧ t'.n = t.n ∧ t'.p = t.p := by
  obtain ⟨hd, hd', v, hv, hv'⟩ := aluResult_swap hop d a b hx
  obtain ⟨hx1, hz1, hn1, hp1⟩ := h.end_of_aluResult hd hv hc
  obtain ⟨hx2, hz2, hn2, hp2⟩ := h'.end_of_aluResult hd' hv' hc'
  exact ⟨by rw [hx2, hx1, hx], hz2.trans hz1.symm, hn2.trans hn1.symm, hp2.trans hp1.symm⟩

/-- The result of a flag writer is in its destination. -/
theorem State.Entered.readReg_end {s t : State} {i : Instr} {d : Reg} {v : Word} (h : s.Entered i)
    (hd : destsOf i = [d]) (hv : aluResult i (s.readOperands i).payload = some v) (hc : Carried i s t) :
    t.readReg d = v := by
  rw [State.readReg]
  simp only [(h.end_of_aluResult hd hv hc).1]
  exact Vector.getElem_set_self _

/-- Exactly one condition code, Z for 0, N for bit 31, after a flag writer with a destination. -/
theorem Carried.one_flag {i : Instr} {s t : State} {d : Reg} (hw : isFlagWriter i = true) (hd : destsOf i = [d])
    (h : Carried i s t) :
    ((t.z = true ∧ t.n = false ∧ t.p = false) ∨ (t.z = false ∧ t.n = true ∧ t.p = false) ∨
      (t.z = false ∧ t.n = false ∧ t.p = true)) ∧
    (t.z = true ↔ t.readReg d = 0#32) ∧ t.n = (t.readReg d).msb := by
  obtain ⟨hz, hn, hp⟩ := h.codes hw hd
  rw [hz, hn, hp]
  refine ⟨one_flag_of_value _, ?_, BitVec.msb_eq_toInt.symm⟩
  rw [zeroFlag_eq, decide_eq_true_eq]
  exact ⟨fun h0 => BitVec.eq_of_toInt_eq h0, fun h0 => h0 ▸ rfl⟩

/-- Settles O40: the laws of the operators, and what each instruction leaves in its destination. -/
theorem arithmeticFacts : Obligations.ArithmeticFacts := by
  refine ⟨word_laws, fun op d a b s s' t t' hop h h' hx hc hc' => swapped_sources hop h h' hx hc hc',
    fun d a b s t => ⟨fun h hc k => ?_, fun h hc k => ?_, fun h hc k => ?_, fun h hc => ?_, fun h hc => ?_,
      fun h hc => ?_⟩, fun d a b s t hc => ?_, fun a b hb h => division_identity hb h⟩
  · rw [h.readReg_end rfl rfl hc]
    exact BitVec.getLsbD_and
  · rw [h.readReg_end rfl rfl hc]
    exact BitVec.getLsbD_or
  · rw [h.readReg_end rfl rfl hc]
    exact BitVec.getLsbD_xor
  · exact (h.readReg_end rfl rfl hc).trans BitVec.and_self
  · exact (h.readReg_end rfl rfl hc).trans BitVec.or_self
  · exact (h.readReg_end rfl rfl hc).trans BitVec.xor_self
  · obtain hc | hc | hc | hc | hc | hc | hc := hc <;> exact hc.one_flag rfl rfl

end Sys2Proof.Machine

/-! PROOFS. The one-at-a-time machine: `40_pipeline_stages.md` R99. -/

namespace Sys2Proof.Machine

/-! ### The instruction at an address -/

/-- The instruction at an address, if there is one (`20_memory.md` R45). -/
def Inputs.instrAt (inputs : Inputs) (pc : Word) : Option Instr :=
  ((fetchIndex inputs.codeBase pc).bind fun k => inputs.imem[k]?).map Record.toInstr

theorem SeqState.iFetch_eq (u : SeqState) :
    u.iFetch = (fetchIndex u.inputs.codeBase u.pc).bind fun k => u.inputs.imem[k]? := by
  unfold SeqState.iFetch
  cases fetchIndex u.inputs.codeBase u.pc <;> rfl

theorem State.iFetch_eq (s : State) :
    s.iFetch = (fetchIndex s.inputs.codeBase s.pc).bind fun k => s.inputs.imem[k]? := by
  unfold State.iFetch
  cases fetchIndex s.inputs.codeBase s.pc <;> rfl

/-- Fetch of the controller and of the one-at-a-time machine are the same function of inputs and address. -/
theorem instrAt_eq_some {s : State} {i : Instr} :
    s.inputs.instrAt s.pc = some i ↔ ∃ r, s.iFetch = some r ∧ r.toInstr = i := by
  rw [State.iFetch_eq, Inputs.instrAt, Option.map_eq_some_iff]

/-! ### One step -/

/-- The outcome of a step that carries `i` out: HALT stops, every other instruction goes on. -/
def SeqOutcome.ofEffect (i : Instr) (e : Except Fault SeqState) : SeqOutcome :=
  match e with
  | .error c => .fault c
  | .ok t => if i = .halt then .halted t else .next t

/-- A step at an address that holds `i` is the net effect of `i`. -/
theorem seqStep_of_instrAt {u : SeqState} {i : Instr} (h : u.inputs.instrAt u.pc = some i) :
    seqStep u = .ofEffect i (seqEffect i u) := by
  obtain ⟨r, hr, rfl⟩ := Option.map_eq_some_iff.1 h
  rw [← SeqState.iFetch_eq] at hr
  unfold seqStep
  rw [hr]
  rfl

theorem seqStep_of_instrAt_none {u : SeqState} (h : u.inputs.instrAt u.pc = none) : seqStep u = .ranOff u := by
  rw [Inputs.instrAt, Option.map_eq_none_iff, ← SeqState.iFetch_eq] at h
  unfold seqStep
  rw [h]

/-- The instruction's access of data memory fails (`60_exceptions.md` R138). -/
def SeqState.misses (u : SeqState) (i : Instr) (l : Latch) : Bool :=
  isMemoryOp i && !u.addressOk (executedLatch i l u.z u.n u.p).memoryAddress

/-- A step, as the stages compute it. -/
theorem seqStep_eq {u : SeqState} {i : Instr} {l : Latch} (hat : u.inputs.instrAt u.pc = some i) (hi : i ≠ .halt)
    (h : l.Reads i u) :
    seqStep u =
      if dividesByZero i l then .fault .divideByZero
      else if u.misses i l then .fault .dataAddressOutOfRange
      else .next (u.through i l) := by
  rw [seqStep_of_instrAt hat, seqEffect_eq hi h, ← SeqState.misses]
  cases dividesByZero i l with
  | true => rfl
  | false =>
    cases u.misses i l with
    | true => rfl
    | false => exact if_neg hi

theorem seqStep_halt {u : SeqState} (hat : u.inputs.instrAt u.pc = some .halt) : seqStep u = .halted u.stop :=
  seqStep_of_instrAt hat

/-- A step that goes on is the passage of an instruction other than HALT through the stages. -/
theorem through_of_seqStep {u u' : SeqState} {i : Instr} {l : Latch} (hat : u.inputs.instrAt u.pc = some i)
    (h : l.Reads i u) (hstep : seqStep u = .next u') : u' = u.through i l := by
  have hi : i ≠ .halt := by
    rintro rfl
    rw [seqStep_halt hat] at hstep
    cases hstep
  rw [seqStep_eq hat hi h] at hstep
  split at hstep
  · cases hstep
  split at hstep
  · cases hstep
  · exact (SeqOutcome.next.inj hstep).symm

/-! ### Many steps -/

theorem seqRun_add {k : Nat} {u v : SeqState} (h : seqRun k u = .next v) (m : Nat) :
    seqRun (k + m) u = seqRun m v := by
  induction k generalizing u with
  | zero =>
    cases h
    rw [Nat.zero_add]
  | succ k ih =>
    rw [Nat.succ_add, seqRun]
    rw [seqRun] at h
    cases hstep : seqStep u with
    | next t =>
      rw [hstep] at h
      exact ih h
    | halted t | fault c | ranOff t =>
      rw [hstep] at h
      cases h

theorem seqRun_one (u : SeqState) : seqRun 1 u = seqStep u := by
  rw [seqRun]
  cases seqStep u <;> rfl

theorem seqRun_succ {k : Nat} {u v : SeqState} (h : seqRun k u = .next v) : seqRun (k + 1) u = seqStep v :=
  (seqRun_add h 1).trans (seqRun_one v)

/-- A machine that has stopped stays so. -/
theorem seqRun_of_le {k m : Nat} {u : SeqState} (h : ∀ v, seqRun k u ≠ .next v) (hle : k ≤ m) :
    seqRun m u = seqRun k u := by
  induction k generalizing m u with
  | zero => exact absurd rfl (h u)
  | succ k ih =>
    obtain ⟨m, rfl⟩ := Nat.exists_eq_add_of_le' (Nat.lt_of_lt_of_le (Nat.succ_pos k) hle)
    rw [seqRun, seqRun] at *
    cases hstep : seqStep u with
    | next t =>
      rw [hstep] at h
      exact ih h (Nat.le_of_succ_le_succ hle)
    | halted t | fault c | ranOff t => rfl

/-- There is one way to stop. -/
theorem seqRun_end_unique {k m : Nat} {u : SeqState} (hk : ∀ v, seqRun k u ≠ .next v)
    (hm : ∀ v, seqRun m u ≠ .next v) : seqRun k u = seqRun m u := by
  obtain hle | hle := Nat.le_total k m
  · exact (seqRun_of_le hk hle).symm
  · exact seqRun_of_le hm hle

/-- A machine that goes on after `k` steps stops, if it does, later. -/
theorem lt_of_seqRun_next {k m : Nat} {u v : SeqState} (hm : ∀ w, seqRun m u ≠ .next w) (hk : seqRun k u = .next v) :
    k < m := by
  by_contra hle
  exact hm v ((seqRun_of_le hm (Nat.le_of_not_lt hle)).symm.trans hk)

/-! ### Another cycle budget -/

/-- The machine with another cycle budget, which it does not have. -/
def SeqState.withCycleLimit (u : SeqState) (l : Nat) : SeqState :=
  { u with inputs := { u.inputs with cycleLimit := l } }

/-- What becomes of an outcome when the budget in the inputs is another. -/
def SeqOutcome.withCycleLimit (o : SeqOutcome) (l : Nat) : SeqOutcome :=
  match o with
  | .next u => .next (u.withCycleLimit l)
  | .halted u => .halted (u.withCycleLimit l)
  | .fault c => .fault c
  | .ranOff u => .ranOff (u.withCycleLimit l)

/-- The operands of `i` in `u`, in a latch. -/
def SeqState.operands (u : SeqState) (i : Instr) : Latch :=
  { Latch.bubble with
    pc := u.pc, rs1Value := (rs1Of i).elim 0#32 u.reg, rs2Value := (rs2Of i).elim 0#32 u.reg }

theorem operands_reads (u : SeqState) (i : Instr) : (u.operands i).Reads i u where
  pc := rfl
  rs1 := fun r hr => by simp [SeqState.operands, hr]
  rs2 := fun r hr => by simp [SeqState.operands, hr]

theorem seqStep_withCycleLimit (u : SeqState) (l : Nat) :
    seqStep (u.withCycleLimit l) = (seqStep u).withCycleLimit l := by
  cases hat : u.inputs.instrAt u.pc with
  | none =>
    have hat' : (u.withCycleLimit l).inputs.instrAt (u.withCycleLimit l).pc = none := hat
    rw [seqStep_of_instrAt_none hat, seqStep_of_instrAt_none hat']
    rfl
  | some i =>
    have hat' : (u.withCycleLimit l).inputs.instrAt (u.withCycleLimit l).pc = some i := hat
    by_cases hi : i = .halt
    · subst hi
      rw [seqStep_halt hat, seqStep_halt hat']
      rfl
    · have hreads : (u.operands i).Reads i (u.withCycleLimit l) := { operands_reads u i with }
      have hmiss : (u.withCycleLimit l).misses i (u.operands i) = u.misses i (u.operands i) := rfl
      rw [seqStep_eq hat hi (operands_reads u i), seqStep_eq hat' hi hreads, hmiss]
      split
      · rfl
      split <;> rfl

theorem seqRun_withCycleLimit (k : Nat) (u : SeqState) (l : Nat) :
    seqRun k (u.withCycleLimit l) = (seqRun k u).withCycleLimit l := by
  induction k generalizing u with
  | zero => rfl
  | succ k ih =>
    rw [seqRun, seqRun, seqStep_withCycleLimit]
    cases seqStep u with
    | next t => exact ih t
    | halted t | fault c | ranOff t => rfl

end Sys2Proof.Machine

/-! PROOFS. The pipeline follows the one-at-a-time machine: `40_pipeline_stages.md` R99, `70_reset_and_hazards.md` R153
items 6 and 10. -/

namespace Sys2Proof.Machine

/-! ### The addresses in the pipeline -/

/-- An occupant of the latch is the instruction at its own address. -/
def Latch.Own (l : Latch) (inputs : Inputs) : Prop := ∀ i : Instr, l.active = some i → inputs.instrAt l.pc = some i

/-- The address of the instruction Fetch holds, or of the next it is to read. -/
def State.fetchPc (t : State) : Word := if t.lF.active.isSome then t.lF.pc else t.pc

/-- The address of the instruction in Decode, or of the next that is to enter it. -/
def State.frontPc (t : State) : Word := if t.lD.active.isSome then t.lD.pc else t.fetchPc

/-- Every occupant is the instruction at its own address, and from `PC` back to Execute each is at the address after
the one ahead of it; once Decode is shut down a HALT is ahead. -/
structure State.Linked (t : State) : Prop where
  ownF : t.lF.Own t.inputs
  ownD : t.lD.Own t.inputs
  ownE : t.lE.Own t.inputs
  ownM : t.lM.Own t.inputs
  ownW : t.lW.Own t.inputs
  fetchLink : t.lF.active.isSome = true → t.pc = nextPc t.lF.pc
  decodeLink : t.lD.active.isSome = true → t.fetchPc = nextPc t.lD.pc
  executeLink : t.lE.active.isSome = true → t.lD.interrupted = false → t.frontPc = nextPc t.lE.pc
  shutAhead : t.lD.interrupted = true →
    t.lE.active = some .halt ∨ t.lM.active = some .halt ∨ t.lW.active = some .halt

theorem own_of_inactive {l : Latch} (h : l.active = none) (inputs : Inputs) : l.Own inputs := fun i hi => by
  cases h.symm.trans hi

/-- An instruction handed on stays the one at its own address. -/
theorem Latch.Own.handOn {l l' : Latch} {inputs : Inputs} {i : Instr} (h : l.Own inputs) (hact : l.active = some i)
    (hi : l'.instr = l.instr) (hpc : l'.pc = l.pc) : l'.Own inputs := fun j hj => by
  rw [hpc, ← (active_eq_some.1 hj).2.2, hi, (active_eq_some.1 hact).2.2]
  exact h i hact

theorem active_of_interrupted {l : Latch} (h : l.interrupted = true) : l.active = none :=
  active_eq_none.2 (.inr h)

theorem not_active_of_interrupted {l : Latch} (h : l.interrupted = true) : ¬ l.active.isSome = true := by
  simp [active_of_interrupted h]

theorem State.fetchPc_of_active {t : State} (h : t.lF.active.isSome = true) : t.fetchPc = t.lF.pc := if_pos h

theorem State.fetchPc_of_inactive {t : State} (h : t.lF.active = none) : t.fetchPc = t.pc := by
  simp [State.fetchPc, h]

theorem State.frontPc_of_active {t : State} {i : Instr} (h : t.lD.active = some i) : t.frontPc = t.lD.pc := by
  simp [State.frontPc, h]

theorem State.frontPc_of_inactive {t : State} (h : t.lD.active = none) : t.frontPc = t.fetchPc := by
  simp [State.frontPc, h]

theorem interrupted_of_active {l : Latch} {i : Instr} (h : l.active = some i) : l.interrupted = false :=
  (active_eq_some.1 h).2.1

theorem State.Linked.writeback {s t : State} (h : s.Linked) (hh : s.haltCommits = false)
    (hs : writebackStage s = .next t) : t.Linked := by
  obtain ⟨-, rfl⟩ | ⟨i, -, hact, rfl⟩ := writebackStage_completed hh hs
  · exact h
  · exact { h with
      ownW := own_of_inactive rfl _
      shutAhead := fun hint => (h.shutAhead hint).imp_right fun hahead => .inl <|
        hahead.resolve_right fun hW => by rw [haltCommits_iff.2 hW] at hh; cases hh }

theorem State.Linked.memory {s t : State} (h : s.Linked) (hW : s.lW = Latch.bubble)
    (hs : memoryStage s = .next t) : t.Linked := by
  have hahead (hint : s.lD.interrupted = true) : s.lE.active = some .halt ∨ s.lM.active = some .halt :=
    (h.shutAhead hint).imp_right fun hahead => hahead.resolve_right fun hact => by rw [hW] at hact; cases hact
  obtain ⟨-, rfl⟩ | ⟨hact, rfl⟩ | ⟨i, hi, hact, -, rfl⟩ := memoryStage_next hs
  · exact h
  · exact { h with
      ownM := own_of_inactive (active_of_interrupted rfl) _
      ownW := h.ownM.handOn hact rfl rfl
      shutAhead := fun _ => .inr (.inr (congrArg some (active_eq_some.1 hact).2.2)) }
  · exact { h with
      ownM := own_of_inactive rfl _
      ownW := h.ownM.handOn hact rfl rfl
      shutAhead := fun hint => .inl ((hahead hint).resolve_right fun hM =>
        hi (Option.some.inj (hact.symm.trans hM))) }

/-- A HALT in Writeback has shut Execute down. -/
theorem State.PassInv.writeback_ne_halt {s : State} {i : Instr} (h : s.PassInv) (hE : s.lE.active = some i) :
    s.lW.active ≠ some .halt := fun hW => by
  obtain ⟨he, -, hhalt⟩ := active_eq_some.1 hW
  cases (interrupted_of_active hE).symm.trans (h.shutMemory (h.haltInWriteback (holdsHalt_iff.2 ⟨he, hhalt⟩)))

theorem State.Linked.execute {s t : State} (h : s.Linked) (hinv : s.PassInv) (hM : s.lM.active = none)
    (hs : executeStage s = .next t) : t.Linked := by
  obtain ⟨-, rfl⟩ | ⟨hexec, rfl⟩ | ⟨i, hi, hexec, -, rfl⟩ := executeStage_next hs
  · exact h
  · have hact := (executing_eq_some.1 hexec).2
    exact { h with
      ownE := own_of_inactive (active_of_interrupted rfl) _
      ownM := h.ownE.handOn hact rfl rfl
      executeLink := fun hE => absurd hE (not_active_of_interrupted rfl)
      shutAhead := fun _ => .inr (.inl (congrArg some (active_eq_some.1 hact).2.2)) }
  · have hact := (executing_eq_some.1 hexec).2
    have hnot : s.lD.interrupted = false := Bool.eq_false_iff.2 fun hint => by
      obtain hE | hM' | hW := h.shutAhead hint
      · exact hi (Option.some.inj (hact.symm.trans hE))
      · cases hM.symm.trans hM'
      · exact hinv.writeback_ne_halt hact hW
    rw [State.executed_eq]
    have hon : (s.handedOn i).Linked := { h with
      ownE := own_of_inactive rfl _
      ownM := h.ownE.handOn hact (executedLatch_instr ..) (executedLatch_pc ..)
      executeLink := Bool.noConfusion
      shutAhead := fun hint => by cases hnot.symm.trans hint }
    cases redirectOf i s.lE s.z s.n s.p with
    | none => exact { hon with }
    | some target => exact { hon with
        ownF := own_of_inactive rfl _
        ownD := own_of_inactive rfl _
        fetchLink := Bool.noConfusion
        decodeLink := Bool.noConfusion
        executeLink := Bool.noConfusion
        shutAhead := Bool.noConfusion }

theorem State.Linked.decode {s t : State} (h : s.Linked) (hE : s.lE.active = none)
    (hs : decodeStage s = .next t) : t.Linked := by
  obtain ⟨-, rfl⟩ | ⟨i, hact, -, rfl⟩ | ⟨hact, -, rfl⟩ | ⟨i, hi, hact, -, -, rfl⟩ := decodeStage_next hs
  · exact h
  · have hlE : s.lE.active.isSome = false := by rw [hE]; rfl
    exact { h with
      ownD := h.ownD.handOn hact rfl rfl
      executeLink := fun hE' => by cases hlE.symm.trans hE' }
  · exact { h with
      ownF := own_of_inactive (active_of_interrupted rfl) _
      ownD := own_of_inactive (active_of_interrupted rfl) _
      ownE := h.ownD.handOn hact rfl rfl
      fetchLink := fun hF => absurd hF (not_active_of_interrupted rfl)
      decodeLink := fun hD => absurd hD (not_active_of_interrupted rfl)
      executeLink := fun _ => Bool.noConfusion
      shutAhead := fun _ => .inl (congrArg some (active_eq_some.1 hact).2.2) }
  · exact { h with
      ownD := own_of_inactive rfl _
      ownE := h.ownD.handOn hact rfl rfl
      decodeLink := Bool.noConfusion
      executeLink := fun _ _ => h.decodeLink (by rw [hact]; rfl)
      shutAhead := Bool.noConfusion }

/-- Fetch's part: what it reads or hands on is the next instruction to enter Decode, and nothing older moves. -/
structure Fetched (s t : State) : Prop where
  linked : t.Linked
  front : s.lD.interrupted = false → t.frontPc = s.frontPc
  shut : t.lD.interrupted = s.lD.interrupted

/-- Handing on what is in `L_F`, or holding it behind a stalled Decode. -/
theorem State.Linked.pushFetch {s : State} (h : s.Linked) (hF : s.lF.empty = false) (hint : s.lF.interrupted = false)
    (hD : s.lD.IsEmpty ∨ s.lD.IsStalled) : Fetched s (s.pushFetch.during .fetch) := by
  have hact : s.lF.active = some s.lF.instr := active_eq_some.2 ⟨hF, hint, rfl⟩
  have hfetchPc : s.fetchPc = s.lF.pc := State.fetchPc_of_active (by rw [hact]; rfl)
  obtain hD | hD := hD
  · have hpush : s.pushFetch = { s with lD := s.lF.payload, lF := Latch.bubble } := by
      rw [State.pushFetch, hD]
      rfl
    have hpc : s.pc = nextPc s.lF.pc := h.fetchLink (by rw [hact]; rfl)
    have hnone : s.lD.active = none := by rw [hD]; rfl
    have hfront : s.lF.pc = s.frontPc := ((State.frontPc_of_inactive hnone).trans hfetchPc).symm
    have hnot : s.lD.interrupted = false := by rw [hD]; rfl
    rw [hpush]
    exact ⟨{ h with
      ownF := own_of_inactive rfl _
      ownD := h.ownF.handOn hact rfl rfl
      fetchLink := Bool.noConfusion
      decodeLink := fun _ => hpc
      executeLink := fun hE _ => hfront.trans (h.executeLink hE hnot)
      shutAhead := Bool.noConfusion }, fun _ => hfront, hnot.symm⟩
  · have hpush : s.pushFetch = { s with lF := { s.lF with stalled := true } } := by
      rw [State.pushFetch, hD.2.1]
      rfl
    rw [hpush]
    exact ⟨{ h with ownF := h.ownF.handOn hact rfl rfl }, fun _ => rfl, rfl⟩

/-- Reading the record at `PC` into an empty `L_F`. -/
theorem State.Linked.fillFetch {s : State} {r : Record} (h : s.Linked) (hF : s.lF.empty = true)
    (hr : s.iFetch = some r) : (s.fillFetch r).Linked ∧ (s.fillFetch r).frontPc = s.frontPc := by
  have hfetchPc : (s.fillFetch r).fetchPc = s.fetchPc :=
    (State.fetchPc_of_inactive (active_eq_none.2 (.inl hF))).symm
  have hfront : (s.fillFetch r).frontPc = s.frontPc := by
    unfold State.frontPc
    rw [hfetchPc]
    rfl
  refine ⟨{ h with
    ownF := fun i hi => ?_
    fetchLink := fun _ => rfl
    decodeLink := fun hD => hfetchPc.trans (h.decodeLink hD)
    executeLink := fun hE hint => hfront.trans (h.executeLink hE hint) }, hfront⟩
  obtain rfl : r.toInstr = i := (active_eq_some.1 hi).2.2
  exact instrAt_eq_some.2 ⟨r, hr, rfl⟩

theorem State.Linked.fetch {s t : State} (h : s.Linked)
    (hD : s.lD.IsEmpty ∨ s.lD.IsStalled ∨ s.lD.IsShut) (htogether : s.lD.interrupted = s.lF.interrupted)
    (hs : fetchStage s = .next t) : Fetched s t := by
  have hfree (hint : s.lF.interrupted = false) : s.lD.IsEmpty ∨ s.lD.IsStalled := by
    obtain hD | hD | hD := hD
    · exact .inl hD
    · exact .inr hD
    · cases (htogether.trans hint).symm.trans hD.2.2.1
  obtain ⟨-, heq⟩ | ⟨-, -, heq⟩ | ⟨-, -, -, -, heq⟩ | ⟨r, hint, -, he, hr, heq⟩ | ⟨hint, -, he, heq⟩ :=
    fetchStage_cases s <;> rw [hs, Host.Outcome.next.injEq] at heq <;> subst heq
  · exact ⟨h, fun _ => rfl, rfl⟩
  · exact ⟨{ h with }, fun _ => rfl, rfl⟩
  · exact ⟨h, fun _ => rfl, rfl⟩
  · obtain ⟨hfill, hfront⟩ := h.fillFetch he hr
    obtain ⟨hlinked, hfront', hshut⟩ := hfill.pushFetch rfl rfl (hfree hint)
    exact ⟨hlinked, fun hD => (hfront' hD).trans hfront, hshut⟩
  · exact h.pushFetch he hint (hfree hint)

end Sys2Proof.Machine

/-! PROOFS. The pipeline and the one-at-a-time machine, stage by stage: `40_pipeline_stages.md` R99. -/

namespace Sys2Proof.Machine

/-! ### What a latch behind Decode holds, seen from the one-at-a-time machine -/

/-- `L_M` takes the one-at-a-time machine from `u` to `u'`: its occupant has executed on the operands it had in `u`. -/
inductive Latch.Executed (l : Latch) (u : SeqState) : SeqState → Prop
  | idle (h : l.active = none) : Executed l u u
  | occupied {i : Instr} (l0 : Latch) (h : l.active = some i) (hreads : l0.Reads i u)
    (hdiv : dividesByZero i l0 = false) (hl : l = (executedLatch i l0 u.z u.n u.p).payload) :
    Executed l u (u.through i l0)

/-- `L_W` takes the one-at-a-time machine from `u` to `u'`: its occupant has executed and passed Memory. -/
inductive Latch.Accessed (l : Latch) (u : SeqState) : SeqState → Prop
  | idle (h : l.active = none) : Accessed l u u
  | occupied {i : Instr} (l0 : Latch) (h : l.active = some i) (hreads : l0.Reads i u)
    (hdiv : dividesByZero i l0 = false) (hmiss : u.misses i l0 = false)
    (hl : l = (loadedLatch i (executedLatch i l0 u.z u.n u.p) u.dmem).payload) : Accessed l u (u.through i l0)

/-- The controller follows the one-at-a-time machine `v`: `u0` is `v` after the instructions committed, `u1` and `u2`
what the occupants of `L_W` and `L_M` make of it. The register file is that of `u0`, data memory that of `u1`, the
condition codes those of `u2`, which is what the occupant of `L_E` reads or the next one from the front will read. An
occupant shut down or behind one that faults does not matter: it will never commit. -/
structure Follows (v : SeqState) (t : State) (u0 u1 u2 : SeqState) : Prop where
  committed : seqRun t.icount v = .next u0
  count : u0.count = t.icount
  inputs : u0.inputs = t.inputs
  regs : u0.x = t.x
  dmem : u1.dmem = t.dmem
  codes : u2.z = t.z ∧ u2.n = t.n ∧ u2.p = t.p
  writeback : t.lW.Accessed u0 u1
  memory : t.lM.Executed u1 u2
  execute : ∀ i : Instr, t.lE.active = some i → t.lE.Reads i u2
  front : t.lE.active = none → t.lD.interrupted = false → t.frontPc = u2.pc

theorem Latch.Accessed.inputs {l : Latch} {u u' : SeqState} (h : l.Accessed u u') : u'.inputs = u.inputs := by
  cases h <;> rfl

theorem Latch.Executed.inputs {l : Latch} {u u' : SeqState} (h : l.Executed u u') : u'.inputs = u.inputs := by
  cases h <;> rfl

theorem Latch.Accessed.eq_of_inactive {l : Latch} {u u' : SeqState} (h : l.Accessed u u') (hact : l.active = none) :
    u' = u := by
  cases h with
  | idle => rfl
  | occupied _ h => cases hact.symm.trans h

theorem Latch.Executed.eq_of_inactive {l : Latch} {u u' : SeqState} (h : l.Executed u u') (hact : l.active = none) :
    u' = u := by
  cases h with
  | idle => rfl
  | occupied _ h => cases hact.symm.trans h

/-- The latch is at the address of the machine it takes on. -/
theorem Latch.Accessed.pc_eq {l : Latch} {u u' : SeqState} {i : Instr} (h : l.Accessed u u') (hact : l.active = some i) :
    l.pc = u.pc := by
  cases h with
  | idle h => cases hact.symm.trans h
  | occupied l0 _ hreads _ _ hl =>
    rw [hl]
    exact (executedLatch_pc ..).trans hreads.pc

theorem Latch.Executed.pc_eq {l : Latch} {u u' : SeqState} {i : Instr} (h : l.Executed u u') (hact : l.active = some i) :
    l.pc = u.pc := by
  cases h with
  | idle h => cases hact.symm.trans h
  | occupied l0 _ hreads _ hl =>
    rw [hl]
    exact (executedLatch_pc ..).trans hreads.pc

/-- A register the latch does not write is the same before and after. -/
theorem Latch.Accessed.reg_eq {l : Latch} {u u' : SeqState} {r : Reg} (h : l.Accessed u u')
    (hr : l.writes r = false) : u'.reg r = u.reg r := by
  cases h with
  | idle => rfl
  | occupied l0 h =>
    obtain ⟨he, -, rfl⟩ := active_eq_some.1 h
    exact commitRegs_of_not_mem (by simpa [Latch.writes, he] using hr) _ _

theorem Latch.Executed.reg_eq {l : Latch} {u u' : SeqState} {r : Reg} (h : l.Executed u u')
    (hr : l.writes r = false) : u'.reg r = u.reg r := by
  cases h with
  | idle => rfl
  | occupied l0 h =>
    obtain ⟨he, -, rfl⟩ := active_eq_some.1 h
    exact commitRegs_of_not_mem (by simpa [Latch.writes, he] using hr) _ _

/-! ### The stage functions -/

/-- The occupant of `L_W`, not HALT, is one step of the machine. -/
theorem Latch.Accessed.seqStep_eq {l : Latch} {u u' : SeqState} {i : Instr} (h : l.Accessed u u')
    (hown : l.Own u.inputs) (hact : l.active = some i) (hi : i ≠ .halt) : seqStep u = .next u' := by
  have hat : u.inputs.instrAt u.pc = some i := h.pc_eq hact ▸ hown i hact
  cases h with
  | idle h => cases hact.symm.trans h
  | occupied l0 h hreads hdiv hmiss =>
    obtain rfl := Option.some.inj (h.symm.trans hact)
    rw [Machine.seqStep_eq hat hi hreads, hdiv, hmiss]
    rfl

theorem Follows.writebackStage {v u0 u1 u2 : SeqState} {s t : State} (h : Follows v s u0 u1 u2) (hlinked : s.Linked)
    (hh : s.haltCommits = false) (hs : writebackStage s = .next t) : Follows v t u1 u1 u2 := by
  obtain ⟨hact, rfl⟩ | ⟨i, hi, hact, rfl⟩ := writebackStage_completed hh hs
  · obtain rfl := h.writeback.eq_of_inactive hact
    exact h
  · have hstep : seqStep u0 = .next u1 := h.writeback.seqStep_eq (h.inputs ▸ hlinked.ownW) hact hi
    have hcommit : u1.x = commitRegs i s.lW s.x ∧ u1.count = u0.count + 1 := by
      obtain hidle | ⟨l0, hact', -, -, -, hl⟩ := h.writeback
      · cases hidle.symm.trans hact
      · obtain rfl := Option.some.inj (hact.symm.trans hact')
        rw [hl, commitRegs_payload, ← h.regs]
        exact ⟨rfl, rfl⟩
    exact { h with
      committed := (seqRun_succ h.committed).trans hstep
      count := hcommit.2.trans (congrArg (· + 1) h.count)
      inputs := h.writeback.inputs.trans h.inputs
      regs := hcommit.1
      writeback := .idle rfl }

/-- Memory finds data memory as the machine has it, so its access is the machine's. -/
theorem Latch.Executed.accessed {s : State} {u1 u2 : SeqState} {i : Instr} (h : s.lM.Executed u1 u2)
    (hact : s.lM.active = some i) (hinputs : u1.inputs = s.inputs) (hdmem : u1.dmem = s.dmem)
    (hmiss : s.misses i = false) : (s.accessed i).lW.Accessed u1 u2 ∧ u2.dmem = (s.accessed i).dmem := by
  obtain hidle | ⟨l0, hact', hreads, hdiv, hl⟩ := h
  · cases hact.symm.trans hidle
  obtain rfl := Option.some.inj (hact.symm.trans hact')
  have hmiss' : u1.misses i l0 = false := by
    rw [State.misses, hl] at hmiss
    rw [SeqState.misses, SeqState.addressOk, hinputs]
    exact hmiss
  have hlW : (s.accessed i).lW = (loadedLatch i (executedLatch i l0 u1.z u1.n u1.p) u1.dmem).payload := by
    rw [State.accessed, State.memoryResult, hl, hdmem]
    rfl
  refine ⟨.occupied l0 ((congrArg some (active_eq_some.1 hact).2.2 :)) hreads hdiv hmiss' hlW, ?_⟩
  rw [State.accessed, hl, ← hdmem]
  rfl

theorem misses_halt (s : State) : s.misses .halt = false := rfl

theorem Follows.memoryStage {v u0 u2 : SeqState} {s t : State} (h : Follows v s u0 u0 u2)
    (hs : memoryStage s = .next t) : Follows v t u0 u2 u2 := by
  obtain ⟨hact, rfl⟩ | ⟨hact, rfl⟩ | ⟨i, hi, hact, hmiss, rfl⟩ := memoryStage_next hs
  · obtain rfl := h.memory.eq_of_inactive hact
    exact h
  · obtain ⟨haccess, hdmem⟩ := h.memory.accessed hact h.inputs h.dmem (misses_halt s)
    exact { h with
      dmem := hdmem
      writeback := haccess
      memory := .idle (active_of_interrupted rfl) }
  · obtain ⟨haccess, hdmem⟩ := h.memory.accessed hact h.inputs h.dmem hmiss
    exact { h with
      dmem := hdmem
      writeback := haccess
      memory := .idle rfl }

/-- Execute works on the operands the machine has, and goes where it goes. -/
theorem Follows.executeStage {v u0 u1 : SeqState} {s t : State} (h : Follows v s u0 u1 u1) (hlinked : s.Linked)
    (hinv : s.PassInv) (hs : executeStage s = .next t) : ∃ u2, Follows v t u0 u1 u2 := by
  obtain ⟨-, rfl⟩ | ⟨hexec, rfl⟩ | ⟨i, hi, hexec, hdiv, rfl⟩ := executeStage_next hs
  · exact ⟨_, h⟩
  · obtain ⟨he, hint, hhalt⟩ := active_eq_some.1 (executing_eq_some.1 hexec).2
    have hD : s.lD.interrupted = true := hinv.haltInExecute (holdsHalt_iff.2 ⟨he, hhalt⟩)
    exact ⟨u1.through .halt s.lE, { h with
      codes := h.codes
      memory := .occupied (i := .halt) s.lE (by exact congrArg some hhalt) (h.execute _ (executing_eq_some.1 hexec).2) rfl rfl
      execute := fun i hi => absurd (Option.isSome_of_eq_some hi) (not_active_of_interrupted rfl)
      front := fun _ hnot => by cases hD.symm.trans hnot }⟩
  · have hact := (executing_eq_some.1 hexec).2
    have hreads := h.execute i hact
    obtain ⟨hz, hn, hp⟩ := h.codes
    have hlM : (s.executed i).lM = (executedLatch i s.lE u1.z u1.n u1.p).payload := by
      rw [hz, hn, hp]
      rfl
    have hinstr : (s.executed i).lM.instr = i :=
      (executedLatch_instr ..).trans (active_eq_some.1 hact).2.2
    refine ⟨_, { h with
      codes := ?_
      memory := .occupied s.lE (congrArg some hinstr) hreads hdiv hlM
      execute := fun _ hnone => by cases hnone
      front := fun _ hnot => ?_ }⟩
    · simp only [SeqState.through, State.executed, State.during_z, State.during_n, State.during_p, hz, hn, hp,
        and_self]
    · simp only [SeqState.through, hz, hn, hp, ← hreads.pc]
      cases ht : redirectOf i s.lE s.z s.n s.p with
      | some target =>
        rw [State.executed_of_redirect ht]
        rfl
      | none =>
        rw [State.executed_eq, ht] at hnot ⊢
        exact hlinked.executeLink (by rw [hact]; rfl) hnot

/-- A register nothing in flight writes is in the file as the machine will find it. -/
theorem Follows.readReg_eq {v u0 u1 u2 : SeqState} {s : State} {r : Reg} (h : Follows v s u0 u1 u2)
    (hM : s.lM.writes r = false) (hW : s.lW.writes r = false) : s.readReg r = u2.reg r := by
  rw [h.memory.reg_eq hM, h.writeback.reg_eq hW, State.readReg, SeqState.reg]
  simp only [h.regs]

/-- Decode reads the operands the machine has: nothing in flight still writes them. -/
theorem Follows.decodeStage {v u0 u1 u2 : SeqState} {s t : State} (h : Follows v s u0 u1 u2) (hinv : s.PassInv)
    (hE : s.lE.active = none) (hs : decodeStage s = .next t) : Follows v t u0 u1 u2 := by
  obtain ⟨-, rfl⟩ | ⟨i, hact, -, rfl⟩ | ⟨hact, hhold, rfl⟩ | ⟨i, hi, hact, -, hcan, rfl⟩ := decodeStage_next hs
  · exact h
  · exact { h with }
  · obtain ⟨-, hint, hhalt⟩ := active_eq_some.1 hact
    have hpc : s.lD.pc = u2.pc := (State.frontPc_of_active hact).symm.trans (h.front hE hint)
    exact { h with
      execute := fun i hi => by
        obtain rfl : .halt = i := hhalt.symm.trans (active_eq_some.1 hi).2.2
        exact readOperands_reads hpc (by simp [srcsOf, rs1Of, rs2Of])
      front := fun hnone => by cases hnone }
  · obtain ⟨-, hint, hinstr⟩ := active_eq_some.1 hact
    have hpc : s.lD.pc = u2.pc := (State.frontPc_of_active hact).symm.trans (h.front hE hint)
    have hregs (r : Reg) (hr : r ∈ srcsOf i) : s.readReg r = u2.reg r := by
      have hready := ((canDispatch_iff s i).1 hcan).1 r hr
      rw [hinv.readyTracks r] at hready
      simp only [Bool.not_eq_true', Bool.or_eq_false_iff] at hready
      exact h.readReg_eq hready.1.2 hready.2
    exact { h with
      execute := fun j hj => by
        obtain rfl : i = j := hinstr.symm.trans (active_eq_some.1 hj).2.2
        exact readOperands_reads hpc hregs
      front := fun hnone => by cases hnone }

/-- Fetch moves nothing of what the machine has come to. -/
theorem Follows.fetchStage {v u0 u1 u2 : SeqState} {s t : State} (h : Follows v s u0 u1 u2) (hf : Fetched s t)
    (hs : fetchStage s = .next t) : Follows v t u0 u1 u2 := by
  have hframe := fetchStage_frame hs
  have hfront : t.lE.active = none → t.lD.interrupted = false → t.frontPc = u2.pc := fun hE hint => by
    rw [hf.shut] at hint
    have hE' : s.lE.active = none := by rw [hframe] at hE; exact hE
    exact (hf.front hint).trans (h.front hE' hint)
  rw [hframe] at hfront ⊢
  exact { h with front := hfront }

/-! ### A pass -/

/-- A completed pass keeps the links between the addresses and follows the one-at-a-time machine. -/
theorem Passes.follows {v u0 u1 u2 : SeqState} {s s1 s2 s3 s4 s5 : State} (hinv : s.Control)
    (hh : s.haltCommits = false) (h : Passes s s1 s2 s3 s4 s5) (hlinked : s.Linked) (hf : Follows v s u0 u1 u2) :
    s5.tick.Linked ∧ ∃ u0 u1 u2, Follows v s5.tick u0 u1 u2 := by
  have hpasses := h.inv hinv hh
  have hl1 := hlinked.writeback hh h.writeback
  have hl2 := hl1.memory hpasses.writebackEmpty h.memory
  have hM := inactive_of_free hpasses.memoryFree
  have hE := inactive_of_free hpasses.executeFree
  have hf2 := (hf.writebackStage hlinked hh h.writeback).memoryStage h.memory
  obtain ⟨u2', hf3⟩ := hf2.executeStage hl2 hpasses.afterMemory h.execute
  have hl4 := (hl2.execute hpasses.afterMemory hM h.execute).decode hE h.decode
  have hfetched := hl4.fetch hpasses.decodeFree hpasses.afterDecode.shutTogether h.fetch
  exact ⟨{ hfetched.linked with }, _, _, _,
    { (hf3.decodeStage hpasses.afterExecute hE h.decode).fetchStage hfetched h.fetch with }⟩

end Sys2Proof.Machine

/-! PROOFS. The pipeline and the one-at-a-time machine along a run: `40_pipeline_stages.md` R99,
`70_reset_and_hazards.md` R153 items 6 and 10. -/

namespace Sys2Proof.Machine

/-! ### The state at every boundary of a run -/

/-- A launch state is the one-at-a-time machine at its start, with nothing in flight. -/
theorem State.Launched.follows {s : State} (h : s.Launched) :
    s.Linked ∧ Follows s.seqView s s.seqView s.seqView s.seqView := by
  have hF : s.lF.active = none := by rw [h.fetchEmpty]; rfl
  have hD : s.lD.active = none := by rw [h.decodeEmpty]; rfl
  have hE : s.lE.active = none := by rw [h.executeEmpty]; rfl
  have hM : s.lM.active = none := by rw [h.memoryEmpty]; rfl
  have hW : s.lW.active = none := by rw [h.writebackEmpty]; rfl
  refine ⟨⟨own_of_inactive hF _, own_of_inactive hD _, own_of_inactive hE _, own_of_inactive hM _,
    own_of_inactive hW _, fun hact => ?_, fun hact => ?_, fun hact => ?_, fun hint => ?_⟩,
    ⟨by rw [h.count]; rfl, rfl, rfl, rfl, rfl, ⟨rfl, rfl, rfl⟩, .idle hW, .idle hM, fun i hact => ?_, fun _ _ => ?_⟩⟩
  · rw [hF] at hact; cases hact
  · rw [hD] at hact; cases hact
  · rw [hE] at hact; cases hact
  · rw [h.decodeEmpty] at hint; cases hint
  · cases hE.symm.trans hact
  · rw [State.frontPc_of_inactive hD, State.fetchPc_of_inactive hF]
    rfl

/-- The controller has halted where the one-at-a-time machine `v` has, in `u`, and nothing is left to act on. -/
structure HaltedAs (v : SeqState) (t : State) (u : SeqState) : Prop where
  halted : t.runState = .halted
  run : seqRun t.icount v = .halted u
  count : u.count = t.icount
  regs : u.x = t.x
  codes : u.z = t.z ∧ u.n = t.n ∧ u.p = t.p
  dmem : u.dmem = t.dmem
  idle : ∀ l ∈ [t.lW, t.lM, t.lE, t.lD, t.lF], l.active = none

/-- A HALT that commits is the one the one-at-a-time machine stops at. -/
theorem Follows.haltCommitted {v u0 u1 u2 : SeqState} {s : State} (h : Follows v s u0 u1 u2) (hlinked : s.Linked)
    (hinv : s.Control) (hact : s.lW.active = some .halt) : HaltedAs v s.haltCommitted u0.stop := by
  obtain ⟨hD, hE, hM, hF⟩ := hinv.shut_of_halt hact
  have hF' : s.lF.active = none := active_eq_none.2 (.inl hF.1)
  have hat : u0.inputs.instrAt u0.pc = some .halt := by
    rw [← h.writeback.pc_eq hact, h.inputs]
    exact hlinked.ownW _ hact
  have hsame : u1.z = u0.z ∧ u1.n = u0.n ∧ u1.p = u0.p ∧ u1.dmem = u0.dmem := by
    obtain hidle | ⟨l0, hact', -⟩ := h.writeback
    · cases hact.symm.trans hidle
    · obtain rfl := Option.some.inj (hact.symm.trans hact')
      exact ⟨rfl, rfl, rfl, rfl⟩
  obtain ⟨hz, hn, hp, hdmem⟩ := hsame
  obtain rfl := h.memory.eq_of_inactive (inactive_of_free (.inr hM))
  exact {
    halted := rfl
    run := (seqRun_succ h.committed).trans (seqStep_halt hat)
    count := congrArg (· + 1) h.count
    regs := h.regs
    codes := ⟨hz.symm.trans h.codes.1, hn.symm.trans h.codes.2.1, hp.symm.trans h.codes.2.2⟩
    dmem := hdmem.symm.trans h.dmem
    idle := by
      simp [State.haltCommitted, inactive_of_free (.inr hM), inactive_of_free (.inr hE),
        inactive_of_free (.inr hD), hF'] }

/-- What holds of every boundary of a run: the controller follows the one-at-a-time machine, or both have halted. -/
def InStep (v : SeqState) (t : State) : Prop :=
  (t.Linked ∧ ∃ u0 u1 u2, Follows v t u0 u1 u2) ∨ ∃ u, HaltedAs v t u

theorem InStep.step {v : SeqState} {s t : State} (h : InStep v s) (hinv : s.Control) (hstep : step s = .next t) :
    InStep v t := by
  obtain ⟨hlinked, u0, u1, u2, hf⟩ | ⟨u, hhalted⟩ := h
  · cases stepOutcome hstep with
    | terminal => exact .inl ⟨hlinked, u0, u1, u2, hf⟩
    | halted _ hact => exact .inr ⟨_, hf.haltCommitted hlinked hinv hact⟩
    | completed _ hh _ _ h => exact .inl (h.follows hinv hh hlinked hf)
    | _ => exact .inl ⟨{ hlinked with }, u0, u1, u2, { hf with }⟩
  · rw [step_of_terminal (by simp [hhalted.halted]), Host.Outcome.next.injEq] at hstep
    exact hstep ▸ .inr ⟨u, hhalted⟩

theorem inStep_of_run {s t : State} {k : Nat} (hs : s.Launched) (h : Host.Core.run Sys2Proof.core k s = .next t) :
    InStep s.seqView t :=
  run_induction (P := fun _ t => InStep s.seqView t) (.inl ⟨hs.follows.1, _, _, _, hs.follows.2⟩)
    (fun _ _ _ hrun hu hstep => hu.step (control_of_run hs.control hrun) hstep) h

/-! ### Where the one-at-a-time machine goes behind the instructions committed -/

theorem filterMap_active_cons (l : Latch) (ls : List Latch) :
    ((l :: ls).filterMap Latch.active).length = l.count + (ls.filterMap Latch.active).length := by
  cases h : l.active with
  | none => simp [h, count_of_active_none h]
  | some i => simp [h, count_of_active_some h, Nat.add_comm]

/-- Behind the occupant of `L_W` the machine, if it goes on, is in `u1`. -/
theorem Follows.after_writeback {v u0 u1 u2 u : SeqState} {s : State} (h : Follows v s u0 u1 u2) (hlinked : s.Linked)
    (hrun : seqRun (s.icount + s.lW.count) v = .next u) : u = u1 := by
  cases hact : s.lW.active with
  | none =>
    obtain rfl := h.writeback.eq_of_inactive hact
    rw [count_of_active_none hact, Nat.add_zero, h.committed] at hrun
    exact (SeqOutcome.next.inj hrun).symm
  | some i =>
    have hat : u0.inputs.instrAt u0.pc = some i := by
      rw [← h.writeback.pc_eq hact, h.inputs]
      exact hlinked.ownW _ hact
    rw [count_of_active_some hact, seqRun_succ h.committed] at hrun
    obtain hidle | ⟨l0, hact', hreads, -⟩ := h.writeback
    · cases hact.symm.trans hidle
    · obtain rfl := Option.some.inj (hact.symm.trans hact')
      exact through_of_seqStep hat hreads hrun

/-- Going on for `m` steps and then for `n`, the machine went on for the `m` before. -/
theorem exists_seqRun_of_add {m n : Nat} {u w : SeqState} (h : seqRun (m + n) u = .next w) :
    ∃ u', seqRun m u = .next u' ∧ seqRun n u' = .next w := by
  by_cases hm : ∃ u', seqRun m u = .next u'
  · obtain ⟨u', hu'⟩ := hm
    exact ⟨u', hu', (seqRun_add hu' n).symm.trans h⟩
  · rw [seqRun_of_le (not_exists.1 hm) (Nat.le_add_right m n)] at h
    exact absurd ⟨w, h⟩ hm

/-- Behind the occupants of `L_W` and `L_M` the machine, if it goes on, is in `u2`. -/
theorem Follows.after_memory {v u0 u1 u2 u : SeqState} {s : State} (h : Follows v s u0 u1 u2) (hlinked : s.Linked)
    (hrun : seqRun (s.icount + s.lW.count + s.lM.count) v = .next u) : u = u2 := by
  obtain ⟨u', hu', hrun'⟩ := exists_seqRun_of_add hrun
  obtain rfl := h.after_writeback hlinked hu'
  cases hact : s.lM.active with
  | none =>
    obtain rfl := h.memory.eq_of_inactive hact
    rw [count_of_active_none hact] at hrun'
    exact (SeqOutcome.next.inj hrun').symm
  | some i =>
    have hat : u'.inputs.instrAt u'.pc = some i := by
      rw [← h.memory.pc_eq hact, h.writeback.inputs, h.inputs]
      exact hlinked.ownM _ hact
    rw [count_of_active_some hact, seqRun_one] at hrun'
    obtain hidle | ⟨l0, hact', hreads, -⟩ := h.memory
    · cases hact.symm.trans hidle
    · obtain rfl := Option.some.inj (hact.symm.trans hact')
      exact through_of_seqStep hat hreads hrun'

/-- Behind the occupants of `L_W`, `L_M` and `L_E`, without a redirect, the machine, if it goes on, is at the front. -/
theorem Follows.after_execute {v u0 u1 u2 u : SeqState} {s : State} (h : Follows v s u0 u1 u2) (hlinked : s.Linked)
    (hinv : s.Control) (hD : s.lD.interrupted = false) (hredirect : s.redirectTarget = none)
    (hrun : seqRun (s.icount + s.lW.count + s.lM.count + s.lE.count) v = .next u) : s.frontPc = u.pc := by
  obtain ⟨u', hu', hrun'⟩ := exists_seqRun_of_add hrun
  obtain rfl := h.after_memory hlinked hu'
  cases hact : s.lE.active with
  | none =>
    rw [count_of_active_none hact] at hrun'
    obtain rfl := SeqOutcome.next.inj hrun'
    exact h.front hact hD
  | some i =>
    have hreads := h.execute i hact
    have hat : u'.inputs.instrAt u'.pc = some i := by
      rw [← hreads.pc, h.memory.inputs, h.writeback.inputs, h.inputs]
      exact hlinked.ownE _ hact
    rw [count_of_active_some hact, seqRun_one] at hrun'
    obtain rfl := through_of_seqStep hat hreads hrun'
    obtain ⟨hz, hn, hp⟩ := h.codes
    rw [redirectTarget_eq, hinv.executing_eq, hact, Option.bind, ← hz, ← hn, ← hp] at hredirect
    rw [hlinked.executeLink (by rw [hact]; rfl) hD, hreads.pc, SeqState.through, hredirect]
    rfl

/-- The occupants follow one another as the machine goes, each the instruction at its own address. -/
theorem occupants_in_order {v : SeqState} {t : State} (h : InStep v t) (hinv : t.Control) :
    let next (older : List Latch) (l : Latch) : Prop := ∀ u : SeqState,
      seqRun (t.icount + (older.filterMap Latch.active).length) v = .next u → l.pc = u.pc
    (∀ l ∈ [t.lW, t.lM, t.lE, t.lD, t.lF], l.Own t.inputs) ∧
    (∀ i : Instr, t.lW.active = some i → next [] t.lW) ∧
    (∀ i : Instr, t.lM.active = some i → next [t.lW] t.lM) ∧
    (∀ i : Instr, t.lE.active = some i → next [t.lW, t.lM] t.lE) ∧
    (∀ i : Instr, t.lD.active = some i →
      (t.redirectTarget = none → next [t.lW, t.lM, t.lE] t.lD) ∧
      (t.redirectTarget ≠ none → t.lD.pc = nextPc t.lE.pc)) ∧
    (∀ i : Instr, t.lF.active = some i → t.lD.active.isSome = true ∧ t.lF.pc = nextPc t.lD.pc) := by
  obtain ⟨hlinked, u0, u1, u2, hf⟩ | ⟨u, hhalted⟩ := h
  · simp only [filterMap_active_cons, List.filterMap_nil, List.length_nil, Nat.add_zero, ← Nat.add_assoc]
    refine ⟨?_, fun i hi u hu => ?_, fun i hi u hu => ?_, fun i hi u hu => ?_, fun i hi => ⟨fun hr u hu => ?_,
      fun hr => ?_⟩, fun i hi => ?_⟩
    · simp only [List.forall_mem_cons, List.not_mem_nil, false_implies, implies_true, and_true]
      exact ⟨hlinked.ownW, hlinked.ownM, hlinked.ownE, hlinked.ownD, hlinked.ownF⟩
    · rw [hf.committed] at hu
      exact (hf.writeback.pc_eq hi).trans (congrArg SeqState.pc (SeqOutcome.next.inj hu))
    · exact hf.after_writeback hlinked hu ▸ hf.memory.pc_eq hi
    · exact hf.after_memory hlinked hu ▸ (hf.execute i hi).pc
    · rw [← State.frontPc_of_active hi]
      exact hf.after_execute hlinked hinv (interrupted_of_active hi) hr hu
    · have hE : t.lE.active.isSome = true := by
        rw [Option.isSome_iff_ne_none]
        exact fun hE => hr (by rw [redirectTarget_eq, hinv.executing_eq, hE]; rfl)
      rw [← State.frontPc_of_active hi]
      exact hlinked.executeLink hE (interrupted_of_active hi)
    · have hstalled : t.lF.IsStalled := by
        obtain hF | hF | hF := hinv.fetchShape
        · rw [hF] at hi; cases hi
        · exact hF
        · rw [active_of_interrupted hF.2.2] at hi; cases hi
      have hD : t.lD.active.isSome = true := by rw [(hinv.of_stalled (hinv.heldFetch hstalled)).1]; rfl
      exact ⟨hD, by rw [← hlinked.decodeLink hD, State.fetchPc_of_active (Option.isSome_of_eq_some hi)]⟩
  · have hidle := hhalted.idle
    refine ⟨fun l hl => own_of_inactive (hidle l hl) _, ?_⟩
    simp only [List.forall_mem_cons] at hidle
    obtain ⟨hW, hM, hE, hD, hF, -⟩ := hidle
    simp [hW, hM, hE, hD, hF]

/-- Settles O56: at every boundary the controller follows the one-at-a-time machine, and the addresses in the pipeline
are linked. -/
theorem occupantsAreInProgramOrder : Obligations.OccupantsAreInProgramOrder := by
  intro s t k hs hrun
  obtain ⟨hown, hrest⟩ := occupants_in_order (inStep_of_run hs hrun) (control_of_run hs.control hrun)
  exact ⟨fun l hl i hi => instrAt_eq_some (s := { t with pc := l.pc }).1 (hown l hl i hi), hrest⟩

/-! ### Agreement -/

/-- What a store in `L_W` has written is all that data memory has ahead of the committed instructions. -/
theorem Latch.Accessed.dmem_ne {l : Latch} {u u' : SeqState} {a : Nat} (h : l.Accessed u u')
    (hne : Memory.read u'.dmem a ≠ Memory.read u.dmem a) :
    l.empty = false ∧ isStore l.instr = true ∧ l.memoryAddress.toInt = (a : Int) := by
  obtain - | ⟨l0, hact, hreads, -, hmiss, hl⟩ := h
  · exact absurd rfl hne
  obtain ⟨he, -, rfl⟩ := active_eq_some.1 hact
  cases hst : isStore l.instr with
  | false => simp [SeqState.through, storedMemory, hst] at hne
  | true =>
    refine ⟨he, rfl, ?_⟩
    simp only [SeqState.through, storedMemory, hst, if_true] at hne
    have haddr : l.memoryAddress = (executedLatch l.instr l0 u.z u.n u.p).memoryAddress :=
      (congrArg Latch.memoryAddress hl :)
    rw [SeqState.misses, isMemoryOp_of_isStore hst, ← haddr] at hmiss
    rw [← haddr] at hne
    have ha : a = l.memoryAddress.toInt.toNat := by
      by_contra ha
      exact hne (Memory.read_write_of_ne _ _ ha)
    have hnonneg : 0 ≤ l.memoryAddress.toInt := by
      simp only [SeqState.addressOk, Bool.true_and, Bool.not_eq_false', Bool.and_eq_true, decide_eq_true_eq] at hmiss
      exact hmiss.1
    omega

/-- Settles O57: the committed instructions are those the machine has carried out. -/
theorem registerFileIsThatOfTheCommittedInstructions : Obligations.RegisterFileIsThatOfTheCommittedInstructions := by
  intro s t k hs _ hrun
  obtain ⟨-, u0, u1, u2, hf⟩ | ⟨u, hhalted⟩ := inStep_of_run hs hrun
  · exact ⟨u0, .inl hf.committed, hf.count, hf.regs, fun a hne => hf.writeback.dmem_ne (hf.dmem ▸ hne)⟩
  · exact ⟨u, .inr hhalted.run, hhalted.count, hhalted.regs, fun a hne => absurd (by rw [hhalted.dmem]) hne⟩

/-- A halted controller and the machine it followed. -/
theorem haltedAs_of_run {s t : State} {k : Nat} (hs : s.Launched) (hrun : Host.Core.run Sys2Proof.core k s = .next t)
    (ht : t.runState = .halted) : ∃ u, HaltedAs s.seqView t u := by
  refine run_induction (P := fun _ t => t.runState = .halted → ∃ u, HaltedAs s.seqView t u) (fun hr => ?_)
    (fun j u v hu hhalted hstep hr => ?_) hrun ht
  · cases hs.running.symm.trans hr
  · by_cases hur : u.runState = .running
    · obtain ⟨-, hact, rfl⟩ := haltCommitted_of_halted hur hstep hr
      obtain ⟨hlinked, u0, u1, u2, hf⟩ | ⟨w, hw⟩ := inStep_of_run hs hu
      · exact ⟨_, hf.haltCommitted hlinked (control_of_run hs.control hu) hact⟩
      · cases hur.symm.trans hw.halted
    · rw [step_of_terminal hur, Host.Outcome.next.injEq] at hstep
      exact hstep ▸ hhalted (hstep ▸ hr)

/-- Settles O58: the HALT that committed is the one the machine stopped at. -/
theorem haltedPipelineAgreesWithSequentialMachine : Obligations.HaltedPipelineAgreesWithSequentialMachine := by
  intro s t k hs hrun ht
  obtain ⟨u, h⟩ := haltedAs_of_run hs hrun ht
  exact ⟨u, h.run, h.regs, h.codes.1, h.codes.2.1, h.codes.2.2, h.dmem, h.count⟩

/-- With no HALT in it, `L_W` is behind the machine by what it holds. -/
theorem Follows.run_writeback {v u0 u1 u2 : SeqState} {s : State} (h : Follows v s u0 u1 u2) (hlinked : s.Linked)
    (hh : s.haltCommits = false) : seqRun (s.icount + s.lW.count) v = .next u1 := by
  cases hact : s.lW.active with
  | none =>
    rw [count_of_active_none hact, h.writeback.eq_of_inactive hact]
    exact h.committed
  | some i =>
    have hi : i ≠ .halt := by
      rintro rfl
      rw [haltCommits_iff.2 hact] at hh
      cases hh
    rw [count_of_active_some hact, seqRun_succ h.committed]
    exact h.writeback.seqStep_eq (h.inputs ▸ hlinked.ownW) hact hi

/-- The step of the machine for the occupant of `L_M`. -/
theorem Follows.seqStep_memory {v u0 u1 u2 : SeqState} {s : State} {i : Instr} (h : Follows v s u0 u1 u2)
    (hlinked : s.Linked) (hact : s.lM.active = some i) (hi : i ≠ .halt) :
    seqStep u1 = if s.misses i then .fault .dataAddressOutOfRange else .next u2 := by
  have hinputs : u1.inputs = s.inputs := h.writeback.inputs.trans h.inputs
  have hat : u1.inputs.instrAt u1.pc = some i := by
    rw [← h.memory.pc_eq hact, hinputs]
    exact hlinked.ownM _ hact
  obtain hidle | ⟨l0, hact', hreads, hdiv, hl⟩ := h.memory
  · cases hact.symm.trans hidle
  obtain rfl := Option.some.inj (hact.symm.trans hact')
  have hmiss : u1.misses i l0 = s.misses i := by
    rw [State.misses, hl, SeqState.misses, SeqState.addressOk, hinputs]
    rfl
  rw [seqStep_eq hat hi hreads, hdiv, hmiss]
  rfl

/-- Where Memory faults the machine does. -/
theorem Follows.fault_memory {v u0 u1 u2 : SeqState} {s : State} (h : Follows v s u0 u1 u2) (hlinked : s.Linked)
    (hh : s.haltCommits = false) (hbad : s.badAddress = true) :
    ∃ m, seqRun m v = .fault .dataAddressOutOfRange := by
  obtain ⟨i, hact⟩ : ∃ i, s.lM.active = some i := by
    cases hact : s.lM.active with
    | none => simp [State.badAddress, hact] at hbad
    | some i => exact ⟨i, rfl⟩
  rw [badAddress_of_active hact] at hbad
  have hi : i ≠ .halt := by
    rintro rfl
    cases hbad
  exact ⟨_, (seqRun_succ (h.run_writeback hlinked hh)).trans
    ((h.seqStep_memory hlinked hact hi).trans (if_pos hbad))⟩

/-- Where Execute faults, and Memory does not, the machine does. -/
theorem Follows.fault_execute {v u0 u1 u2 : SeqState} {s : State} (h : Follows v s u0 u1 u2) (hlinked : s.Linked)
    (hinv : s.Control) (hh : s.haltCommits = false) (hok : s.badAddress = false) (hzero : s.zeroDivisor = true) :
    ∃ m, seqRun m v = .fault .divideByZero := by
  obtain ⟨i, hexec⟩ : ∃ i, s.executing = some i := by
    cases hexec : s.executing with
    | none => simp [State.zeroDivisor, hexec] at hzero
    | some i => exact ⟨i, rfl⟩
  rw [zeroDivisor_of_executing hexec] at hzero
  rw [hinv.executing_eq] at hexec
  have hi : i ≠ .halt := by
    rintro rfl
    cases hzero
  have hrun : seqRun (s.icount + s.lW.count + s.lM.count) v = .next u2 := by
    cases hact : s.lM.active with
    | none =>
      rw [count_of_active_none hact, h.memory.eq_of_inactive hact]
      exact h.run_writeback hlinked hh
    | some j =>
      have hj : j ≠ .halt := by
        rintro rfl
        obtain ⟨he, -, hhalt⟩ := active_eq_some.1 hact
        cases (interrupted_of_active hexec).symm.trans (hinv.haltInMemory (holdsHalt_iff.2 ⟨he, hhalt⟩))
      rw [badAddress_of_active hact] at hok
      rw [count_of_active_some hact, seqRun_succ (h.run_writeback hlinked hh), h.seqStep_memory hlinked hact hj, hok]
      rfl
  have hreads := h.execute i hexec
  have hat : u2.inputs.instrAt u2.pc = some i := by
    rw [← hreads.pc, h.memory.inputs, h.writeback.inputs, h.inputs]
    exact hlinked.ownE _ hexec
  exact ⟨_, (seqRun_succ hrun).trans ((seqStep_eq hat hi hreads).trans (if_pos hzero))⟩

/-- Settles O59: the run state became a fault in a pass that Memory or Execute undid, and the machine faults on the same
occupant. -/
theorem faultedPipelineAgreesWithSequentialMachine : Obligations.FaultedPipelineAgreesWithSequentialMachine := by
  intro s t k c hs hrun ht
  refine run_induction (P := fun _ t => t.runState = .fault c → ∃ m, seqRun m s.seqView = .fault c) (fun hr => ?_)
    (fun j u v hu hfault hstep hr => ?_) hrun ht
  · cases hs.running.symm.trans hr
  have hinv := control_of_run hs.control hu
  obtain ⟨hlinked, u0, u1, u2, hf⟩ | ⟨w, hw⟩ := inStep_of_run hs hu
  · cases stepOutcome hstep with
    | terminal => exact hfault hr
    | badAddress _ hh hbad =>
      cases hr
      exact hf.fault_memory hlinked hh hbad
    | zeroDivisor _ hh hok hzero =>
      cases hr
      exact hf.fault_execute hlinked hinv hh hok hzero
    | completed hw hh _ _ h =>
      rw [State.tick_runState, (h.counters hh).1, hw.running] at hr
      cases hr
    | _ => cases hr
  · rw [step_of_terminal (by simp [hw.halted]), Host.Outcome.next.injEq] at hstep
    exact hfault (hstep ▸ hr)

end Sys2Proof.Machine

/-! PROOFS. The controller comes to the end the one-at-a-time machine comes to: `40_pipeline_stages.md` R99. -/

namespace Sys2Proof.Machine

/-! ### Every pass brings the next commit nearer -/

/-- How many passes the oldest instruction, or the next to be fetched, has to its commit if it never waits. -/
def State.distance (t : State) : Nat :=
  if t.lW.active.isSome then 1
  else if t.lM.active.isSome then 2
  else if t.lE.active.isSome then 3
  else if t.lD.active.isSome then 4
  else 5

theorem State.distance_bounds (t : State) : 1 ≤ t.distance ∧ t.distance ≤ 5 := by
  unfold State.distance
  repeat' split
  all_goals omega

theorem State.distance_of_memory {t : State} (h : t.lM.active.isSome = true) : t.distance ≤ 2 := by
  simp only [State.distance, h, if_true]
  split <;> omega

theorem State.distance_of_execute {t : State} (h : t.lE.active.isSome = true) : t.distance ≤ 3 := by
  simp only [State.distance, h, if_true]
  repeat' split
  all_goals omega

theorem State.distance_of_decode {t : State} (h : t.lD.active.isSome = true) : t.distance ≤ 4 := by
  simp only [State.distance, h, if_true]
  repeat' split
  all_goals omega

/-- With nothing ahead of it the instruction in Decode does not wait. -/
theorem State.Control.not_waitsFor {s : State} (hinv : s.Control) (hM : s.lM.active = none) (hE : s.lE.active = none)
    (i : Instr) : ¬ s.waitsFor i := by
  have hfreeM := isEmpty_or_isShut_of_inactive hinv.memoryShape hM
  have hfreeE := isEmpty_or_isShut_of_inactive hinv.executeShape hE
  simp [State.waitsFor, writes_of_free hfreeM, writes_of_free hfreeE, isProducer_of_free hfreeM,
    isProducer_of_free hfreeE]

/-- With nothing to act on behind Fetch, all five latches are empty. -/
theorem State.Linked.drained {s : State} (h : s.Linked) (hinv : s.Control) (hW : s.lW.active = none)
    (hM : s.lM.active = none) (hE : s.lE.active = none) (hD : s.lD.active = none) : s.lD.IsEmpty ∧ s.lF.IsEmpty := by
  have hlD : s.lD.IsEmpty := by
    obtain he | hshut := isEmpty_or_isShut_of_decode_inactive hinv.decodeShape hD
    · exact he
    · have := h.shutAhead hshut.2.2.1
      simp [hW, hM, hE] at this
  refine ⟨hlD, ?_⟩
  obtain hF | hF | hF := hinv.fetchShape
  · exact hF
  · have := hinv.heldFetch hF
    rw [hlD] at this
    exact absurd this not_isStalled_bubble
  · have := hinv.shutTogether.trans hF.2.2
    rw [hlD] at this
    cases this

/-- With nothing in flight a pass fetches, if there is an instruction to fetch. -/
theorem Passes.fetches {s s1 s2 s3 s4 s5 : State} {r : Record} (hinv : s.Control) (h : Passes s s1 s2 s3 s4 s5)
    (hW : s.lW.active = none) (hM : s.lM.active = none) (hE : s.lE.active = none) (hD : s.lD.IsEmpty)
    (hF : s.lF.IsEmpty) (hr : s.iFetch = some r) : s5.lD.active.isSome = true := by
  have hD' : s.lD.active = none := by rw [hD]; rfl
  obtain rfl := Host.Outcome.next.inj ((writebackStage_of_inactive hW).symm.trans h.writeback)
  obtain rfl := Host.Outcome.next.inj ((memoryStage_of_inactive hM).symm.trans h.memory)
  obtain rfl := Host.Outcome.next.inj ((executeStage_of_idle (hinv.executing_eq.trans hE)).symm.trans h.execute)
  obtain rfl := Host.Outcome.next.inj ((decodeStage_of_inactive hD').symm.trans h.decode)
  have hst : s.lD.stalled = false := by rw [hD]; rfl
  obtain ⟨hint, -⟩ | ⟨-, hskip, -⟩ | ⟨-, -, -, hnone, -⟩ | ⟨r', -, -, -, -, heq⟩ | ⟨-, -, he, -⟩ := fetchStage_cases s
  · rw [hF] at hint; cases hint
  · cases hinv.noSkip.symm.trans hskip
  · cases hr.symm.trans hnone
  · rw [h.fetch, Host.Outcome.next.injEq] at heq
    rw [heq, State.during_lD, State.pushFetch_lD, State.fillFetch_lD, hst]
    rfl
  · rw [hF] at he; cases he

/-- Where the machine goes on, there is an instruction to fetch. -/
theorem Follows.exists_fetch {v u0 u1 u2 : SeqState} {s : State} (h : Follows v s u0 u1 u2)
    (hW : s.lW.active = none) (hM : s.lM.active = none) (hE : s.lE.active = none) (hD : s.lD.IsEmpty)
    (hF : s.lF.IsEmpty) (hgoes : ∀ w, seqStep u0 ≠ .ranOff w) : ∃ r, s.iFetch = some r := by
  obtain rfl := h.writeback.eq_of_inactive hW
  obtain rfl := h.memory.eq_of_inactive hM
  have hlD : s.lD.active = none := by rw [hD]; rfl
  have hlF : s.lF.active = none := by rw [hF]; rfl
  have hpc : s.pc = u2.pc := by
    rw [← h.front hE (by rw [hD]; rfl), State.frontPc_of_inactive hlD, State.fetchPc_of_inactive hlF]
  cases hat : s.inputs.instrAt s.pc with
  | none =>
    rw [← h.inputs, hpc] at hat
    exact absurd (seqStep_of_instrAt_none hat) (hgoes _)
  | some i => exact (instrAt_eq_some.1 hat).imp fun _ hr => hr.1

/-- Every completed pass commits an instruction or brings the next commit nearer. -/
theorem Passes.progress {v u0 u1 u2 : SeqState} {s s1 s2 s3 s4 s5 : State} (hinv : s.Control)
    (hh : s.haltCommits = false) (h : Passes s s1 s2 s3 s4 s5) (hlinked : s.Linked) (hf : Follows v s u0 u1 u2)
    (hgoes : ∀ w, seqStep u0 ≠ .ranOff w) :
    (s.distance = 1 ∧ s5.icount = s.icount + 1) ∨ (s5.distance < s.distance ∧ s5.icount = s.icount) := by
  obtain ⟨hadvE, hadvM⟩ := h.advance hinv
  obtain ⟨-, -, hcount⟩ := h.counters hh
  cases hW : s.lW.active with
  | some i => exact .inl ⟨by simp [State.distance, hW], by simpa [hW] using hcount⟩
  | none =>
    refine .inr ⟨?_, by simpa [hW] using hcount⟩
    cases hM : s.lM.active with
    | some i =>
      have hW' := active_of_occupied (hadvM i hM).1
      simp [State.distance, hW, hM, hW']
    | none =>
      cases hE : s.lE.active with
      | some i =>
        have := State.distance_of_memory (Option.isSome_of_eq_some (active_of_occupied (hadvE i hE).1))
        simp only [State.distance, hW, hM, hE] at this ⊢
        exact Nat.lt_succ_of_le this
      | none =>
        cases hD : s.lD.active with
        | some i =>
          have hredirect : s.redirectTarget = none := by
            rw [Machine.redirectTarget_eq, hinv.executing_eq, hE]
            rfl
          obtain ⟨hwaits, -⟩ | ⟨-, hlE⟩ := h.decode_choice hinv hh hD hredirect
          · exact absurd hwaits (hinv.not_waitsFor hM hE i)
          · have := State.distance_of_execute (t := s5) (by rw [hlE]; rfl)
            have hs : s.distance = 4 := by simp [State.distance, hW, hM, hE, hD]
            omega
        | none =>
          obtain ⟨hlD, hlF⟩ := hlinked.drained hinv hW hM hE hD
          obtain ⟨r, hr⟩ := hf.exists_fetch hW hM hE hlD hlF hgoes
          have := State.distance_of_decode (h.fetches hinv hW hM hE hlD hlF hr)
          have hs : s.distance = 5 := by simp [State.distance, hW, hM, hE, hD]
          omega

/-! ### The end of a run -/

/-- Passes left, at most, to the end of a machine that stops within `m` instructions. -/
def State.remaining (m : Nat) (t : State) : Nat := 5 * (m - t.icount) + t.distance

theorem inputs_of_run {s t : State} {k : Nat} (h : Host.Core.run Sys2Proof.core k s = .next t) : t.inputs = s.inputs :=
  run_induction (P := fun _ t => t.inputs = s.inputs) rfl
    (fun _ u w _ hu hstep => (inputsAreNeverWritten.1 u w hstep).trans hu) h

/-- A machine that stops with HALT or a fault. -/
structure Stops (v : SeqState) (m : Nat) : Prop where
  stops : ∀ w, seqRun m v ≠ .next w
  inside : ∀ w, seqRun m v ≠ .ranOff w

/-- Before its end such a machine goes on inside its program. -/
theorem Stops.before {v u : SeqState} {m k : Nat} (h : Stops v m) (hk : seqRun k v = .next u) :
    k < m ∧ ∀ w, seqStep u ≠ .ranOff w := by
  refine ⟨lt_of_seqRun_next h.stops hk, fun w hw => ?_⟩
  have hoff : seqRun (k + 1) v = .ranOff w := (seqRun_succ hk).trans hw
  have hend := seqRun_end_unique h.stops (fun w' hw' => by cases hoff.symm.trans hw')
  exact h.inside w (hend.trans hoff)

theorem Passes.remaining_lt {v u0 u1 u2 : SeqState} {m : Nat} {s s1 s2 s3 s4 s5 : State} (hinv : s.Control)
    (hh : s.haltCommits = false) (h : Passes s s1 s2 s3 s4 s5) (hlinked : s.Linked) (hf : Follows v s u0 u1 u2)
    (hend : Stops v m) : s5.tick.remaining m < s.remaining m := by
  obtain ⟨hlt, hgoes⟩ := hend.before hf.committed
  have hdist : s5.tick.distance = s5.distance := rfl
  have hle := s5.distance_bounds
  simp only [State.remaining, State.tick_icount, hdist]
  obtain ⟨hone, hcount⟩ | ⟨hnear, hcount⟩ := h.progress hinv hh hlinked hf hgoes <;> omega

/-- The run has come to a halt or a fault. -/
def Ended (s : State) : Prop :=
  ∃ k t, Host.Core.run Sys2Proof.core k s = .next t ∧ (t.runState = .halted ∨ ∃ c, t.runState = .fault c)

/-- With budget for what remains the run ends. -/
theorem ended_of_remaining {s : State} {m : Nat} (hs : s.Launched) (hretire : s.inputs.retireLimit = none)
    (hend : Stops s.seqView m) (n : Nat) {k : Nat} {t : State} (hrun : Host.Core.run Sys2Proof.core k s = .next t)
    (hr : t.runState = .running) (hn : t.remaining m ≤ n) (hbudget : t.clk + n ≤ s.inputs.cycleLimit) : Ended s := by
  induction n generalizing k t with
  | zero =>
    have := t.distance_bounds
    simp only [State.remaining] at hn
    omega
  | succ n ih =>
    obtain ⟨w, hstep, hout⟩ := stepOutcome_total t
    have hrun' : Host.Core.run Sys2Proof.core (k + 1) s = .next w := run_succ.2 ⟨t, hrun, hstep⟩
    have hinputs := inputs_of_run hrun
    cases hout with
    | terminal h => exact absurd hr h
    | budget _ h =>
      rw [hinputs] at h
      omega
    | retireLimit _ h =>
      rw [State.retireLimitReached, hinputs, hretire] at h
      cases h
    | halted => exact ⟨_, _, hrun', .inl rfl⟩
    | badAddress => exact ⟨_, _, hrun', .inr ⟨_, rfl⟩⟩
    | zeroDivisor => exact ⟨_, _, hrun', .inr ⟨_, rfl⟩⟩
    | @completed _ _ _ _ s5 _ hh _ _ h =>
      obtain ⟨hr', hclk, -⟩ := h.counters hh
      obtain ⟨hlinked, u0, u1, u2, hf⟩ | ⟨u, hhalted⟩ := inStep_of_run hs hrun
      · have hlt := h.remaining_lt (control_of_run hs.control hrun) hh hlinked hf hend
        exact ih hrun' (hr'.trans hr) (by omega) (by rw [State.tick_clk, hclk]; omega)
      · cases hr.symm.trans hhalted.halted

theorem State.Launched.withCycleLimit {s : State} (h : s.Launched) (l : Nat) : (s.withCycleLimit l).Launched :=
  { h with }

theorem State.Launched.ended {s : State} {m l : Nat} (h : s.Launched) (hretire : s.inputs.retireLimit = none)
    (hend : Stops (s.withCycleLimit l).seqView m) (hl : 5 * m + 6 ≤ l) : Ended (s.withCycleLimit l) := by
  have hs := h.withCycleLimit l
  have hdist := (s.withCycleLimit l).distance_bounds
  refine ended_of_remaining hs hretire hend (5 * m + 5) (k := 0) rfl hs.running ?_ ?_
  · simp only [State.remaining]
    omega
  · rw [hs.clock]
    exact (by omega : 1 + (5 * m + 5) ≤ l)

/-- Settles O60: the run ends, and it ends as the machine does, because both ends agree. -/
theorem sequentialEndsAreReachedByThePipeline : Obligations.SequentialEndsAreReachedByThePipeline := by
  intro s m hs hretire
  have hview (l : Nat) : seqRun m (s.withCycleLimit l).seqView = (seqRun m s.seqView).withCycleLimit l :=
    seqRun_withCycleLimit m s.seqView l
  refine ⟨fun u hu => ⟨5 * m + 6, fun l hl => ?_⟩, fun c hc => ⟨5 * m + 6, fun l hl => ?_⟩⟩
  · have hrun : seqRun m (s.withCycleLimit l).seqView = .halted (u.withCycleLimit l) := by rw [hview, hu]; rfl
    have hend : Stops (s.withCycleLimit l).seqView m := ⟨by simp [hrun], by simp [hrun]⟩
    obtain ⟨k, t, ht, hhalted | ⟨c, hfault⟩⟩ := hs.ended hretire hend hl
    · exact ⟨k, t, ht, hhalted⟩
    · obtain ⟨m', hm'⟩ := faultedPipelineAgreesWithSequentialMachine _ t k c (hs.withCycleLimit l) ht hfault
      have hsame := seqRun_end_unique hend.stops (k := m) (m := m') (by simp [hm'])
      cases hrun.symm.trans (hsame.trans hm')
  · have hrun : seqRun m (s.withCycleLimit l).seqView = .fault c := by rw [hview, hc]; rfl
    have hend : Stops (s.withCycleLimit l).seqView m := ⟨by simp [hrun], by simp [hrun]⟩
    obtain ⟨k, t, ht, hhalted | ⟨c', hfault⟩⟩ := hs.ended hretire hend hl
    · obtain ⟨w, hw⟩ := haltedAs_of_run (hs.withCycleLimit l) ht hhalted
      have hsame := seqRun_end_unique hend.stops (k := m) (m := t.icount) (by simp [hw.run])
      cases hrun.symm.trans (hsame.trans hw.run)
    · obtain ⟨m', hm'⟩ := faultedPipelineAgreesWithSequentialMachine _ t k c' (hs.withCycleLimit l) ht hfault
      have hsame := seqRun_end_unique hend.stops (k := m) (m := m') (by simp [hm'])
      obtain rfl : c = c' := SeqOutcome.fault.inj (hrun.symm.trans (hsame.trans hm'))
      exact ⟨k, t, ht, hfault⟩

end Sys2Proof.Machine
